-- ==== Sys2Proof/Word.lean ====
section
/-! DEFINITION. The widths of the register window (spec/10_state.md R29): bytes, half words, words. -/

namespace Sys2Proof

/-- An 8-bit register or one byte of issuer memory. -/
abbrev Byte := BitVec 8

/-- The 16-bit BLKSIZE register. -/
abbrev Half := BitVec 16

/-- A 32-bit register, response word or data-port word. -/
abbrev Word := BitVec 32

end Sys2Proof
end

