-- ==== Sys2Proof/Syntax.lean ====
section
/-! DEFINITION. The objects the block works on (spec/10_state.md R24 to R27) and its steps: one
constructor of Instr per mnemonic of spec/opcode_table.json. -/

namespace Sys2Proof

/-- Response shapes (R24, R97). -/
inductive Shape where
  | noResponse
  | short
  | shortBusy
  | long
  | r3
  deriving DecidableEq, Repr, Inhabited

/-- Error values of a Command or Data object (R24, R250). -/
inductive Err where
  | ok
  | timeout
  | protocolViolation
  | noMedium
  deriving DecidableEq, Repr, Inhabited

/-- Direction of a Data phase (R24). -/
inductive Dir where
  | read
  | write
  deriving DecidableEq, Repr, Inhabited

/-- Role of a Command within its Request (R24). -/
inductive Role where
  | sbc
  | primary
  | stop
  deriving DecidableEq, Repr, Inhabited

/-- One region of a scatter list (R24). -/
structure SgEntry where
  addr : Nat
  len  : Nat
  deriving DecidableEq, Repr, Inhabited

/-- The four captured response words of a Command; none where the engine captured nothing (R25). -/
structure Resp where
  w0 : Option Word := none
  w1 : Option Word := none
  w2 : Option Word := none
  w3 : Option Word := none
  deriving DecidableEq, Repr, Inhabited

/-- A Command (R25). The opcode is a natural so that an opcode of 64 or more can be submitted and
refused (R86); the shape is its 3-bit code, so that codes 5 to 7 can be submitted and refused (R97). -/
structure Command where
  opcode    : Nat
  arg       : Word
  shapeCode : BitVec 3
  timeoutMs : Nat
  resp      : Resp := {}
  error     : Err := .ok
  role      : Role
  deriving DecidableEq, Repr, Inhabited

/-- A Data object (R26). -/
structure Data where
  dir         : Dir
  blksz       : Nat
  blocks      : Nat
  sg          : List SgEntry
  bytesXfered : Nat := 0
  error       : Err := .ok
  stop        : Option Command := none
  deriving DecidableEq, Repr, Inhabited

/-- A Request (R27). -/
structure Request where
  cmd  : Option Command
  sbc  : Option Command := none
  data : Option Data := none
  deriving DecidableEq, Repr, Inhabited

/-- Power modes (R43). -/
inductive PowerMode where
  | off
  | up
  | on
  deriving DecidableEq, Repr, Inhabited

/-- Kinds of a log event (R123). -/
inductive LogKind where
  | spuriousCmd
  | spuriousData
  | busyWithData
  | abortTimeout
  | unclassifiedBits (m : Word)
  | cardIntBits (m : Word)
  deriving DecidableEq, Repr, Inhabited

/-- The two deferred-work units (R41). -/
inductive WorkUnit where
  | finish
  | card
  deriving DecidableEq, Repr, Inhabited

/-- The two abort sequences (R91). -/
inductive AbortKind where
  | cmd
  | data
  deriving DecidableEq, Repr, Inhabited

/-- The steps: one constructor per mnemonic of spec/opcode_table.json. Operands are those of the
rule each constructor names. -/
inductive Instr where
  -- top-level steps (R99)
  | attach
  | detach
  | submit (r : Request)
  | irq
  | wdog
  | workFinish
  | workCard
  | notify
  | setPower (mode : PowerMode)
  | envRaise (m : Word)
  | envCard (b : Bool)
  -- sub-operations (R100)
  | issue (r : Role)
  | arm (n : Nat)
  | cancel
  | cmdIrq (mask : Word)
  | finishCmd
  | prepare
  | triggerBlock (size : Half) (dir : Dir)
  | dataIrq (mask : Word)
  | pio
  | pioReadBlock
  | pioWriteBlock
  | finishData (e : Err)
  | abortSeq (k : AbortKind)
  | schedule (w : WorkUnit)
  | log (k : LogKind)
  | read8 (off : Word)
  | read32 (off : Word)
  | write8 (off : Word) (v : Byte)
  | write32 (off : Word) (v : Word)
  | write16 (off : Word) (v : Half)
  -- register-level encodings (R87 to R93)
  | cmdbyte (opcode : BitVec 6)
  | argword (arg : Word)
  | rspctlNone
  | rspctlShort
  | rspctlShortbusy
  | rspctlLong
  | rspctlR3
  | datactlRead
  | datactlWrite
  | abortCmd
  | abortData
  | powerOff
  | powerUp
  | powerOn
  | blksz16 (blksz : BitVec 10)
  -- interrupt-status words (R31, R94, R104, R192); w is the whole word
  | stCmdComplete (w : Word)
  | stXferComplete (w : Word)
  | stSpaceAvail (w : Word)
  | stDataAvail (w : Word)
  | stCardInsert (w : Word)
  | stCardRemove (w : Word)
  | stCardInt (w : Word)
  | stCmdTimeout (w : Word)
  | stCmdCrc (w : Word)
  | stCmdEndBit (w : Word)
  | stCmdIndex (w : Word)
  | stDataTimeout (w : Word)
  | stDataCrc (w : Word)
  | stDataEndBit (w : Word)
  | stUnclassified (w : Word)
  | spuriousZero
  | spuriousAllOnes
  -- field codes (R97, R98)
  | shapeNone
  | shapeShort
  | shapeShortbusy
  | shapeLong
  | shapeR3
  | shapeInvalid (code : BitVec 3)
  | dirRead
  | dirWrite
  | roleSbc
  | rolePrimary
  | roleStop
  -- reserved operation codes (R100, R111)
  | opInvalid (code : Byte)
  deriving DecidableEq, Repr, Inhabited

/-- The formats of spec/opcode_table.json (R85, R97, R98): a word is read within one of them, since
the same bits mean different things in different formats. -/
inductive Format where
  | op
  | cmdByte
  | argWord
  | rspCtl
  | dataCtl
  | blkSz
  | abortCtl
  | powerCtl
  | intStat
  | shape
  | dir
  | role
  deriving DecidableEq, Repr, Inhabited

/-- One step as it stands in the agenda: the format, the bytes (the table's word, lowest byte
first, then the operand bytes) and, for SUBMIT, the Request, which the spec gives no binary layout
(R96). -/
structure Entry where
  fmt   : Format
  bytes : List Byte
  req   : Request
  deriving DecidableEq, Repr, Inhabited

/-- The Request beside an entry that is no SUBMIT, and the one a bare SUBMIT word carries: the
command `0,0,NONE` of R107 with no data. -/
def Request.blank : Request :=
  { cmd := some { opcode := 0, arg := 0, shapeCode := 0, timeoutMs := 0, role := .primary } }

/-- The eleven top-level steps, each a step of one agent (R99). Everything else runs in the spec
only inside one of them, or is an encoding. -/
def Instr.topLevel : Instr → Bool
  | .attach | .detach | .submit _ | .irq | .wdog | .workFinish | .workCard | .notify
  | .setPower _ | .envRaise _ | .envCard _ => true
  | _ => false

end Sys2Proof
end

