-- ==== Sys2Proof/Config.lean ====
section
/-! DEFINITION. What is fixed for one machine: the numbers the source fixes (spec/00_scope.md R7),
the parameters it leaves open with the spec's reference values (R8), and the free values. -/

namespace Sys2Proof

/-! ## Data the free values take and give -/

/-- The four words of a long response (R102). -/
structure RespWords where
  w0 : Word
  w1 : Word
  w2 : Word
  w3 : Word
  deriving DecidableEq, Repr, Inhabited

/-- What the engine writes on a Command (R25). -/
structure CommandResult where
  resp  : Resp
  error : Err
  deriving DecidableEq, Repr, Inhabited

/-- What the engine writes on the objects of a Request (R25, R26). -/
structure RequestResult where
  cmd         : CommandResult
  sbc         : CommandResult
  stop        : CommandResult
  dataError   : Err
  bytesXfered : Nat
  deriving DecidableEq, Repr, Inhabited

namespace Config

/-- MAX_BLKSZ (R7). -/
def maxBlksz : Nat := 512
/-- MAX_BLOCKS (R7). -/
def maxBlocks : Nat := 65536
/-- MAX_XFER (R7). -/
def maxXfer : Nat := 524288
/-- WD_DEFAULT_UNITS (R7). -/
def wdDefaultUnits : Nat := 10
/-- WD_LONG_THRESHOLD_MS (R7). -/
def wdLongThresholdMs : Nat := 9000
/-- WD_MS_PER_UNIT_DIVISOR (R7). -/
def wdMsPerUnitDivisor : Nat := 1000
/-- The extra unit of the extended timeout (spec/93_implementation_defined.md section 2). -/
def wdExtraUnits : Nat := 1
/-- ABORT_POLL_MAX (R7). -/
def abortPollMax : Nat := 500

/-- FREE VALUE (R121): the n-th draw of the environment that nothing in the state has settled. -/
opaque freeWord : Nat → Word

/-- FREE VALUE (R102; log 6): the n-th unknown long-response correction, from the four words read to
the four stored. -/
opaque freeRespFix : Nat → RespWords → RespWords

/-- FREE VALUE (R236; log 26): what is notified of the n-th Request whose issuer broke its duties. -/
opaque freeResult : Nat → RequestResult

/-- FREE VALUE (R264, R298): the step some agent offers next when the agenda is empty. -/
opaque freeStep : Nat → Instr

end Config

/-- LONG_RESP_FIX (R102) as data (log 6). -/
inductive LongRespFix where
  /-- the reference: a byte swap of each word -/
  | swapEachWord
  /-- any given function, by its values: the four words stored for each four words read that are
  listed, the reference for the rest -/
  | listed (values : List (RespWords × RespWords))
  /-- a function of which nothing is known -/
  | unknown (n : Nat)
  deriving DecidableEq, Repr, Inhabited

/-- STOP_POLICY (R8, R168, C2; spec/93 item 19). -/
inductive StopPolicy where
  | a
  | b
  deriving DecidableEq, Repr, Inhabited

/-- What a transfer request does with the blocks left once dataEarly is set, on which R156 and R287
differ (log 37): as R156 is written a block is moved; as R287 says none is. -/
inductive EarlyBlocks where
  | moved
  | left
  deriving DecidableEq, Repr, Inhabited

/-- What a read of PRESENT shows, on which R116 and R51 with R241 differ (log 8): as R116 is written a
word the environment draws whole; as R241 says, in the card bit what ENV_CARD last set. -/
inductive PresentRead where
  | drawn
  | slot
  deriving DecidableEq, Repr, Inhabited

/-- The parameters the source leaves open (R8), and those of log 8 and log 37. They stand in the state so
that a statement over all states is one over all their values; no step changes them. -/
structure Params where
  offIntStatus : Nat
  offIntEnable : Nat
  offCmd       : Nat
  offCmdCtrl   : Nat
  offDataCtrl  : Nat
  offAbort     : Nat
  offArg       : Nat
  offBlksize   : Nat
  offPresent   : Nat
  offPower     : Nat
  offResp0     : Nat
  offResp1     : Nat
  offResp2     : Nat
  offResp3     : Nat
  offData      : Nat
  windowSize   : Nat
  stCmdComplete  : Nat
  stXferComplete : Nat
  stSpaceAvail   : Nat
  stDataAvail    : Nat
  stCardInsert   : Nat
  stCardRemove   : Nat
  stCardInt      : Nat
  stCmdTimeout   : Nat
  stCmdCrc       : Nat
  stCmdEndBit    : Nat
  stCmdIndex     : Nat
  stDataTimeout  : Nat
  stDataCrc      : Nat
  stDataEndBit   : Nat
  rspTagA : Byte
  rspTagB : Byte
  rspTagC : Byte
  rspTagD : Byte
  cmdStartTag : Byte
  dctlRead  : Byte
  dctlWrite : Byte
  dctlStart : Byte
  abortCmd  : Byte
  abortData : Byte
  presentCard   : Nat
  pwrPrimary    : Nat
  irqEnableMask : Word
  argSwap       : Bool
  longRespFix   : LongRespFix
  wdUnitMs      : Nat
  memAddrWidth  : Nat
  stopPolicy    : StopPolicy
  earlyBlocks   : EarlyBlocks
  presentRead   : PresentRead
  deriving DecidableEq, Repr, Inhabited

/-- The reference values (R8, R29, R31, R89, R90, R91; spec/92 D2 to D8, D12, D14 to D17, D26, D28).
They are the spec's own choice, not the device's; earlyBlocks is that of R287 and spec/93 item 14
(log 37), presentRead that of R116, D24 and spec/93 item 3 (log 8). -/
def Params.reference : Params where
  offIntStatus := 0x00
  offIntEnable := 0x04
  offCmd       := 0x08
  offCmdCtrl   := 0x09
  offDataCtrl  := 0x0A
  offAbort     := 0x0B
  offArg       := 0x0C
  offBlksize   := 0x10
  offPresent   := 0x14
  offPower     := 0x18
  offResp0     := 0x20
  offResp1     := 0x24
  offResp2     := 0x28
  offResp3     := 0x2C
  offData      := 0x30
  windowSize   := 0x40
  stCmdComplete  := 0
  stXferComplete := 1
  stSpaceAvail   := 4
  stDataAvail    := 5
  stCardInsert   := 6
  stCardRemove   := 7
  stCardInt      := 8
  stCmdTimeout   := 16
  stCmdCrc       := 17
  stCmdEndBit    := 18
  stCmdIndex     := 19
  stDataTimeout  := 20
  stDataCrc      := 21
  stDataEndBit   := 22
  rspTagA := 0x01
  rspTagB := 0x02
  rspTagC := 0x04
  rspTagD := 0x08
  cmdStartTag := 0x40
  dctlRead  := 0x01
  dctlWrite := 0x02
  dctlStart := 0x80
  abortCmd  := 0x02
  abortData := 0x04
  presentCard   := 0
  pwrPrimary    := 0
  irqEnableMask := 0x007F01F3
  argSwap       := true
  longRespFix   := .swapEachWord
  wdUnitMs      := 1000
  memAddrWidth  := 32
  stopPolicy    := .b
  earlyBlocks   := .left
  presentRead   := .drawn

end Sys2Proof
end

