-- ==== Sys2Proof/Decode.lean ====
section
/-! DEFINITION. Decoding an agenda entry into a step, and the encoder (spec/30_encoding.md,
spec/opcode_table.json). Every word is read within its format; the table's bit values are the
reference values of R8. Operand bytes follow the table's word, each multi-byte operand lowest byte
first (log 20). -/

namespace Sys2Proof

/-! ## Byte order -/

/-- Four bytes, lowest first, as one word (R67, R68). -/
def wordOf (b0 b1 b2 b3 : Byte) : Word := b3 ++ b2 ++ b1 ++ b0

/-- Two bytes, lowest first, as one half word (R67). -/
def halfOf (b0 b1 : Byte) : Half := b1 ++ b0

/-- Byte k of a word: bits 8k+7 down to 8k (R67). -/
def byteOf (w : Word) (k : Nat) : Byte := w.extractLsb' (8 * k) 8

/-- Byte k of a half word (R67). -/
def halfByteOf (h : Half) (k : Nat) : Byte := h.extractLsb' (8 * k) 8

/-- bswap32 (R9). -/
def bswap32 (w : Word) : Word := wordOf (byteOf w 3) (byteOf w 2) (byteOf w 1) (byteOf w 0)

/-- The bytes of a word, lowest first. -/
def bytesOfWord (w : Word) : List Byte := [byteOf w 0, byteOf w 1, byteOf w 2, byteOf w 3]

/-- The bytes of a half word, lowest first. -/
def bytesOfHalf (h : Half) : List Byte := [halfByteOf h 0, halfByteOf h 1]

/-! ## Field codes -/

/-- Shape codes (R97); 5 to 7 name no shape. -/
def Shape.ofCode (c : BitVec 3) : Option Shape :=
  match c.toNat with
  | 0 => some .noResponse
  | 1 => some .short
  | 2 => some .shortBusy
  | 3 => some .long
  | 4 => some .r3
  | _ => none

/-- The code of a shape (R97). -/
def Shape.code : Shape → BitVec 3
  | .noResponse => 0
  | .short => 1
  | .shortBusy => 2
  | .long => 3
  | .r3 => 4

/-- Direction codes (R98). -/
def Dir.code : Dir → Byte
  | .read => 0
  | .write => 1

/-- Role codes (R98). -/
def Role.code : Role → Byte
  | .sbc => 0
  | .primary => 1
  | .stop => 2

/-- Error codes (R250). -/
def Err.code : Err → Byte
  | .ok => 0
  | .timeout => 1
  | .protocolViolation => 2
  | .noMedium => 3

/-- Operand code of a power mode, in the order of R107 (log 20). -/
def PowerMode.code : PowerMode → Byte
  | .off => 0
  | .up => 1
  | .on => 2

/-- Operand code of a deferred-work unit (log 20). -/
def WorkUnit.code : WorkUnit → Byte
  | .finish => 0
  | .card => 1

/-- Operand code of an abort sequence (log 20). -/
def AbortKind.code : AbortKind → Byte
  | .cmd => 0
  | .data => 1

/-- Operand code of a log kind, in the order of R123 (log 20). -/
def LogKind.code : LogKind → Byte
  | .spuriousCmd => 0
  | .spuriousData => 1
  | .busyWithData => 2
  | .abortTimeout => 3
  | .unclassifiedBits _ => 4
  | .cardIntBits _ => 5

/-- The mask a log kind carries; 0 for a kind without one (R123). -/
def LogKind.mask : LogKind → Word
  | .unclassifiedBits m => m
  | .cardIntBits m => m
  | _ => 0

/-! ## The interrupt-status word -/

/-- Positions of the classified bits in the table's order (R31, reference positions). -/
def classifiedPositions : List Nat := [0, 1, 4, 5, 6, 7, 8, 16, 17, 18, 19, 20, 21, 22]

/-- The first classified bit set in a status word, in the table's order. -/
def leadBit (w : Word) : Option Nat := classifiedPositions.find? (fun n => w.getLsbD n)

/-- The step an interrupt-status word names: the two whole words that are not decoded (R192), else
the row of its first classified bit, else the unclassified row (R94, R104; log 14). -/
def decodeIntStat (w : Word) : Instr :=
  if w = 0 then .spuriousZero
  else if w = BitVec.allOnes 32 then .spuriousAllOnes
  else match leadBit w with
    | some 0 => .stCmdComplete w
    | some 1 => .stXferComplete w
    | some 4 => .stSpaceAvail w
    | some 5 => .stDataAvail w
    | some 6 => .stCardInsert w
    | some 7 => .stCardRemove w
    | some 8 => .stCardInt w
    | some 16 => .stCmdTimeout w
    | some 17 => .stCmdCrc w
    | some 18 => .stCmdEndBit w
    | some 19 => .stCmdIndex w
    | some 20 => .stDataTimeout w
    | some 21 => .stDataCrc w
    | some 22 => .stDataEndBit w
    | _ => .stUnclassified w

/-! ## Decoding -/

/-- Why an entry names no step. -/
inductive DecodeError where
  /-- the entry's bytes are not as many as its word and operands take -/
  | badLength
  /-- an operand byte is no code of its field -/
  | badOperand (code : Byte)
  /-- the word is none of its format's rows -/
  | badWord (fmt : Format)
  deriving DecidableEq, Repr, Inhabited

/-- No operand bytes. -/
def operand0 (i : Instr) : List Byte → Except DecodeError Instr
  | [] => .ok i
  | _ => .error .badLength

/-- One operand byte. -/
def operand1 (f : Byte → Except DecodeError Instr) : List Byte → Except DecodeError Instr
  | [b] => f b
  | _ => .error .badLength

/-- One operand word. -/
def operandWord (f : Word → Instr) : List Byte → Except DecodeError Instr
  | [a, b, c, d] => .ok (f (wordOf a b c d))
  | _ => .error .badLength

/-- A role operand (R98). -/
def roleOperand (f : Role → Instr) (b : Byte) : Except DecodeError Instr :=
  match b.toNat with
  | 0 => .ok (f .sbc)
  | 1 => .ok (f .primary)
  | 2 => .ok (f .stop)
  | _ => .error (.badOperand b)

/-- A direction operand (R98). -/
def dirOperand (f : Dir → Instr) (b : Byte) : Except DecodeError Instr :=
  match b.toNat with
  | 0 => .ok (f .read)
  | 1 => .ok (f .write)
  | _ => .error (.badOperand b)

/-- An error operand (R250). -/
def errOperand (f : Err → Instr) (b : Byte) : Except DecodeError Instr :=
  match b.toNat with
  | 0 => .ok (f .ok)
  | 1 => .ok (f .timeout)
  | 2 => .ok (f .protocolViolation)
  | 3 => .ok (f .noMedium)
  | _ => .error (.badOperand b)

/-- A power-mode operand. -/
def modeOperand (f : PowerMode → Instr) (b : Byte) : Except DecodeError Instr :=
  match b.toNat with
  | 0 => .ok (f .off)
  | 1 => .ok (f .up)
  | 2 => .ok (f .on)
  | _ => .error (.badOperand b)

/-- A 0 or 1 operand (R241). -/
def boolOperand (f : Bool → Instr) (b : Byte) : Except DecodeError Instr :=
  match b.toNat with
  | 0 => .ok (f false)
  | 1 => .ok (f true)
  | _ => .error (.badOperand b)

/-- A deferred-work operand. -/
def workOperand (f : WorkUnit → Instr) (b : Byte) : Except DecodeError Instr :=
  match b.toNat with
  | 0 => .ok (f .finish)
  | 1 => .ok (f .card)
  | _ => .error (.badOperand b)

/-- An abort-sequence operand. -/
def abortOperand (f : AbortKind → Instr) (b : Byte) : Except DecodeError Instr :=
  match b.toNat with
  | 0 => .ok (f .cmd)
  | 1 => .ok (f .data)
  | _ => .error (.badOperand b)

/-- TRIGGER_BLOCK's operands: size, then direction. -/
def triggerOperands : List Byte → Except DecodeError Instr
  | [s0, s1, d] => dirOperand (.triggerBlock (halfOf s0 s1)) d
  | _ => .error .badLength

/-- LOG's operands: the kind, then its mask (0 for a kind without one). -/
def logOperands : List Byte → Except DecodeError Instr
  | [k, a, b, c, d] =>
    let m := wordOf a b c d
    match k.toNat with
    | 4 => .ok (.log (.unclassifiedBits m))
    | 5 => .ok (.log (.cardIntBits m))
    | n =>
      if m = 0 then
        match n with
        | 0 => .ok (.log .spuriousCmd)
        | 1 => .ok (.log .spuriousData)
        | 2 => .ok (.log .busyWithData)
        | 3 => .ok (.log .abortTimeout)
        | _ => .error (.badOperand k)
      else .error (.badOperand k)
  | _ => .error .badLength

/-- WRITE8's operands: offset, then value. -/
def write8Operands : List Byte → Except DecodeError Instr
  | [a, b, c, d, v] => .ok (.write8 (wordOf a b c d) v)
  | _ => .error .badLength

/-- WRITE32's operands: offset, then value. -/
def write32Operands : List Byte → Except DecodeError Instr
  | [a, b, c, d, v0, v1, v2, v3] => .ok (.write32 (wordOf a b c d) (wordOf v0 v1 v2 v3))
  | _ => .error .badLength

/-- WRITE16's operands: offset, then value. -/
def write16Operands : List Byte → Except DecodeError Instr
  | [a, b, c, d, v0, v1] => .ok (.write16 (wordOf a b c d) (halfOf v0 v1))
  | _ => .error .badLength

/-- An operation code and its operand bytes (R99, R100). Total on any code: one that names nothing
decodes to OP_INVALID (R111). -/
def decodeOp (c : Byte) (rest : List Byte) (req : Request) : Except DecodeError Instr :=
  match c.toNat with
  | 0x01 => operand0 .attach rest
  | 0x02 => operand0 .detach rest
  | 0x03 => operand0 (.submit req) rest
  | 0x04 => operand0 .irq rest
  | 0x05 => operand0 .wdog rest
  | 0x06 => operand0 .workFinish rest
  | 0x07 => operand0 .workCard rest
  | 0x08 => operand0 .notify rest
  | 0x09 => operand1 (modeOperand .setPower) rest
  | 0x0A => operandWord .envRaise rest
  | 0x0B => operand1 (boolOperand .envCard) rest
  | 0x10 => operand1 (roleOperand .issue) rest
  | 0x11 => operandWord (fun w => .arm w.toNat) rest
  | 0x12 => operand0 .cancel rest
  | 0x13 => operandWord .cmdIrq rest
  | 0x14 => operand0 .finishCmd rest
  | 0x15 => operand0 .prepare rest
  | 0x16 => triggerOperands rest
  | 0x17 => operandWord .dataIrq rest
  | 0x18 => operand0 .pio rest
  | 0x19 => operand0 .pioReadBlock rest
  | 0x1A => operand0 .pioWriteBlock rest
  | 0x1B => operand1 (errOperand .finishData) rest
  | 0x1C => operand1 (abortOperand .abortSeq) rest
  | 0x1D => operand1 (workOperand .schedule) rest
  | 0x1E => logOperands rest
  | 0x20 => operandWord .read8 rest
  | 0x21 => operandWord .read32 rest
  | 0x22 => write8Operands rest
  | 0x23 => write32Operands rest
  | 0x24 => write16Operands rest
  | _ => operand0 (.opInvalid c) rest

/-- Does an operation code name a step or sub-operation (R99, R100)? -/
def namedOp (c : Byte) : Bool :=
  (0x01 ≤ c.toNat && c.toNat ≤ 0x0B) || (0x10 ≤ c.toNat && c.toNat ≤ 0x1E)
    || (0x20 ≤ c.toNat && c.toNat ≤ 0x24)

/-- RSPCTL words (R89). -/
def decodeRspCtl (b : Byte) : Except DecodeError Instr :=
  match b.toNat with
  | 0x00 => .ok .rspctlNone
  | 0x01 => .ok .rspctlShort
  | 0x03 => .ok .rspctlShortbusy
  | 0x04 => .ok .rspctlLong
  | 0x08 => .ok .rspctlR3
  | _ => .error (.badWord .rspCtl)

/-- DATACTL words (R90). -/
def decodeDataCtl (b : Byte) : Except DecodeError Instr :=
  match b.toNat with
  | 0x81 => .ok .datactlRead
  | 0x82 => .ok .datactlWrite
  | _ => .error (.badWord .dataCtl)

/-- ABORTCTL words (R91). -/
def decodeAbortCtl (b : Byte) : Except DecodeError Instr :=
  match b.toNat with
  | 0x02 => .ok .abortCmd
  | 0x04 => .ok .abortData
  | _ => .error (.badWord .abortCtl)

/-- POWERCTL words (R92). Up and On write the same value, so a second byte tells the two rows apart
(log 20). -/
def decodePowerCtl : List Byte → Except DecodeError Instr
  | [b] => if b = 0 then .ok .powerOff else .error .badLength
  | [b, m] =>
    if b = 1 then
      match m.toNat with
      | 0 => .ok .powerUp
      | 1 => .ok .powerOn
      | _ => .error (.badOperand m)
    else .error (.badWord .powerCtl)
  | _ => .error .badLength

/-- Shape codes as words (R97). -/
def decodeShape (b : Byte) : Except DecodeError Instr :=
  match b.toNat with
  | 0 => .ok .shapeNone
  | 1 => .ok .shapeShort
  | 2 => .ok .shapeShortbusy
  | 3 => .ok .shapeLong
  | 4 => .ok .shapeR3
  | 5 => .ok (.shapeInvalid 5)
  | 6 => .ok (.shapeInvalid 6)
  | 7 => .ok (.shapeInvalid 7)
  | _ => .error (.badWord .shape)

/-- Direction codes as words (R98). -/
def decodeDir (b : Byte) : Except DecodeError Instr :=
  match b.toNat with
  | 0 => .ok .dirRead
  | 1 => .ok .dirWrite
  | _ => .error (.badWord .dir)

/-- Role codes as words (R98). -/
def decodeRole (b : Byte) : Except DecodeError Instr :=
  match b.toNat with
  | 0 => .ok .roleSbc
  | 1 => .ok .rolePrimary
  | 2 => .ok .roleStop
  | _ => .error (.badWord .role)

/-- CMDBYTE words (R87): the tag 01 above the six opcode bits. -/
def decodeCmdByte (b : Byte) : Except DecodeError Instr :=
  if b.extractLsb' 6 2 = 1#2 then .ok (.cmdbyte (b.extractLsb' 0 6))
  else .error (.badWord .cmdByte)

/-- BLKSZ16 words (R93): bits 15 to 10 are 0. -/
def decodeBlkSz (h : Half) : Except DecodeError Instr :=
  if h.extractLsb' 10 6 = 0#6 then .ok (.blksz16 (h.extractLsb' 0 10))
  else .error (.badWord .blkSz)

/-- The step an entry names, or why it names none. Total on any bytes. -/
def decode (e : Entry) : Except DecodeError Instr :=
  match e.fmt, e.bytes with
  | .op, c :: rest => decodeOp c rest e.req
  | .cmdByte, [b] => decodeCmdByte b
  | .argWord, [a, b, c, d] => .ok (.argword (bswap32 (wordOf a b c d)))
  | .rspCtl, [b] => decodeRspCtl b
  | .dataCtl, [b] => decodeDataCtl b
  | .blkSz, [a, b] => decodeBlkSz (halfOf a b)
  | .abortCtl, [b] => decodeAbortCtl b
  | .powerCtl, bs => decodePowerCtl bs
  | .intStat, [a, b, c, d] => .ok (decodeIntStat (wordOf a b c d))
  | .shape, [b] => decodeShape b
  | .dir, [b] => decodeDir b
  | .role, [b] => decodeRole b
  | _, _ => .error .badLength

/-! ## Encoding -/

/-- An entry of the OP format. -/
def opEntry (c : Byte) (operands : List Byte) : Entry :=
  { fmt := .op, bytes := c :: operands, req := Request.blank }

/-- An entry of another format. -/
def wordEntry (f : Format) (bytes : List Byte) : Entry :=
  { fmt := f, bytes := bytes, req := Request.blank }

/-- The entry that stands for a step, from the tables of R87 to R100. -/
def encode : Instr → Entry
  | .attach => opEntry 0x01 []
  | .detach => opEntry 0x02 []
  | .submit r => { opEntry 0x03 [] with req := r }
  | .irq => opEntry 0x04 []
  | .wdog => opEntry 0x05 []
  | .workFinish => opEntry 0x06 []
  | .workCard => opEntry 0x07 []
  | .notify => opEntry 0x08 []
  | .setPower m => opEntry 0x09 [m.code]
  | .envRaise m => opEntry 0x0A (bytesOfWord m)
  | .envCard b => opEntry 0x0B [if b then 1 else 0]
  | .issue r => opEntry 0x10 [r.code]
  | .arm n => opEntry 0x11 (bytesOfWord (BitVec.ofNat 32 n))
  | .cancel => opEntry 0x12 []
  | .cmdIrq m => opEntry 0x13 (bytesOfWord m)
  | .finishCmd => opEntry 0x14 []
  | .prepare => opEntry 0x15 []
  | .triggerBlock size dir => opEntry 0x16 (bytesOfHalf size ++ [dir.code])
  | .dataIrq m => opEntry 0x17 (bytesOfWord m)
  | .pio => opEntry 0x18 []
  | .pioReadBlock => opEntry 0x19 []
  | .pioWriteBlock => opEntry 0x1A []
  | .finishData e => opEntry 0x1B [e.code]
  | .abortSeq k => opEntry 0x1C [k.code]
  | .schedule w => opEntry 0x1D [w.code]
  | .log k => opEntry 0x1E (k.code :: bytesOfWord k.mask)
  | .read8 off => opEntry 0x20 (bytesOfWord off)
  | .read32 off => opEntry 0x21 (bytesOfWord off)
  | .write8 off v => opEntry 0x22 (bytesOfWord off ++ [v])
  | .write32 off v => opEntry 0x23 (bytesOfWord off ++ bytesOfWord v)
  | .write16 off v => opEntry 0x24 (bytesOfWord off ++ bytesOfHalf v)
  | .cmdbyte opcode => wordEntry .cmdByte [1#2 ++ opcode]
  | .argword arg => wordEntry .argWord (bytesOfWord (bswap32 arg))
  | .rspctlNone => wordEntry .rspCtl [0x00]
  | .rspctlShort => wordEntry .rspCtl [0x01]
  | .rspctlShortbusy => wordEntry .rspCtl [0x03]
  | .rspctlLong => wordEntry .rspCtl [0x04]
  | .rspctlR3 => wordEntry .rspCtl [0x08]
  | .datactlRead => wordEntry .dataCtl [0x81]
  | .datactlWrite => wordEntry .dataCtl [0x82]
  | .abortCmd => wordEntry .abortCtl [0x02]
  | .abortData => wordEntry .abortCtl [0x04]
  | .powerOff => wordEntry .powerCtl [0x00]
  | .powerUp => wordEntry .powerCtl [0x01, 0x00]
  | .powerOn => wordEntry .powerCtl [0x01, 0x01]
  | .blksz16 b => wordEntry .blkSz (bytesOfHalf (0#6 ++ b))
  | .stCmdComplete w => wordEntry .intStat (bytesOfWord w)
  | .stXferComplete w => wordEntry .intStat (bytesOfWord w)
  | .stSpaceAvail w => wordEntry .intStat (bytesOfWord w)
  | .stDataAvail w => wordEntry .intStat (bytesOfWord w)
  | .stCardInsert w => wordEntry .intStat (bytesOfWord w)
  | .stCardRemove w => wordEntry .intStat (bytesOfWord w)
  | .stCardInt w => wordEntry .intStat (bytesOfWord w)
  | .stCmdTimeout w => wordEntry .intStat (bytesOfWord w)
  | .stCmdCrc w => wordEntry .intStat (bytesOfWord w)
  | .stCmdEndBit w => wordEntry .intStat (bytesOfWord w)
  | .stCmdIndex w => wordEntry .intStat (bytesOfWord w)
  | .stDataTimeout w => wordEntry .intStat (bytesOfWord w)
  | .stDataCrc w => wordEntry .intStat (bytesOfWord w)
  | .stDataEndBit w => wordEntry .intStat (bytesOfWord w)
  | .stUnclassified w => wordEntry .intStat (bytesOfWord w)
  | .spuriousZero => wordEntry .intStat (bytesOfWord 0)
  | .spuriousAllOnes => wordEntry .intStat (bytesOfWord (BitVec.allOnes 32))
  | .shapeNone => wordEntry .shape [0]
  | .shapeShort => wordEntry .shape [1]
  | .shapeShortbusy => wordEntry .shape [2]
  | .shapeLong => wordEntry .shape [3]
  | .shapeR3 => wordEntry .shape [4]
  | .shapeInvalid c => wordEntry .shape [0#5 ++ c]
  | .dirRead => wordEntry .dir [0]
  | .dirWrite => wordEntry .dir [1]
  | .roleSbc => wordEntry .role [0]
  | .rolePrimary => wordEntry .role [1]
  | .roleStop => wordEntry .role [2]
  | .opInvalid c => opEntry c []

/-! ## Words as spec/opcode_table.json numbers them -/

/-- How many operand bytes follow an operation code. -/
def operandLength (c : Byte) : Nat :=
  match c.toNat with
  | 0x09 | 0x0B | 0x10 | 0x1B | 0x1C | 0x1D => 1
  | 0x0A | 0x11 | 0x13 | 0x17 | 0x20 | 0x21 => 4
  | 0x16 => 3
  | 0x1E | 0x22 => 5
  | 0x23 => 8
  | 0x24 => 6
  | _ => 0

/-- Has a word at most one bit set? -/
def atMostOneBit (w : Word) : Bool := w &&& (w - 1) == 0

/-- The entry for a table word of nbits bits with operand bytes of zeros. A width alone does not
name a format, and the table's formats overlap: the reading taken is named by the most specific row
(log 21). -/
def tableEntry (nbits w : Nat) : Option Entry :=
  let b := BitVec.ofNat 8 w
  match nbits with
  | 1 => some (wordEntry .dir [b])
  | 2 => some (wordEntry .role [b])
  | 3 => some (wordEntry .shape [b])
  | 8 =>
    if namedOp b then some (opEntry b (List.replicate (operandLength b) 0))
    else if b.extractLsb' 6 2 = 1#2 then some (wordEntry .cmdByte [b])
    else if b = 0x81 ∨ b = 0x82 then some (wordEntry .dataCtl [b])
    else some (opEntry b [])
  | 16 => some (wordEntry .blkSz (bytesOfHalf (BitVec.ofNat 16 w)))
  | 32 =>
    let v := BitVec.ofNat 32 w
    if atMostOneBit v || v == BitVec.allOnes 32 then some (wordEntry .intStat (bytesOfWord v))
    else some (wordEntry .argWord (bytesOfWord v))
  | _ => none

/-- The step this decoder reads from a table word (host interface). -/
def decodeTableWord (nbits w : Nat) : Option Instr :=
  match tableEntry nbits w with
  | some e =>
    match decode e with
    | .ok i => some i
    | .error _ => none
  | none => none

end Sys2Proof
end

