-- ==== Sys2Proof/WellFormed.lean ====
section
/-! DEFINITION. Which steps have an encoding (spec/30_encoding.md): the operands the types do not
bound already. -/

namespace Sys2Proof

/-- Is w a status word whose row is that of the classified bit n (R94; log 14)? -/
def statusWordOf (n : Nat) (w : Word) : Bool :=
  w != 0 && w != BitVec.allOnes 32 && leadBit w == some n

/-- Is w a status word with no classified bit, at least one other bit and not all ones (R104)? -/
def unclassifiedWord (w : Word) : Bool :=
  w != 0 && w != BitVec.allOnes 32 && leadBit w == none

/-- The operands an encoding can carry: an arm count of 32 bits (log 30), a status word of the row's
own bit (R94), an invalid shape code of 5 to 7 (R97), an operation code that names nothing (R100). -/
def Instr.wellFormed : Instr → Bool
  | .arm n => decide (n < 2 ^ 32)
  | .stCmdComplete w => statusWordOf 0 w
  | .stXferComplete w => statusWordOf 1 w
  | .stSpaceAvail w => statusWordOf 4 w
  | .stDataAvail w => statusWordOf 5 w
  | .stCardInsert w => statusWordOf 6 w
  | .stCardRemove w => statusWordOf 7 w
  | .stCardInt w => statusWordOf 8 w
  | .stCmdTimeout w => statusWordOf 16 w
  | .stCmdCrc w => statusWordOf 17 w
  | .stCmdEndBit w => statusWordOf 18 w
  | .stCmdIndex w => statusWordOf 19 w
  | .stDataTimeout w => statusWordOf 20 w
  | .stDataCrc w => statusWordOf 21 w
  | .stDataEndBit w => statusWordOf 22 w
  | .stUnclassified w => unclassifiedWord w
  | .shapeInvalid c => decide (5 ≤ c.toNat)
  | .opInvalid c => !namedOp c
  | _ => true

end Sys2Proof
end

