-- ==== Sys2Proof/Machine/State.lean ====
section
/-! DEFINITION. All the state the spec gives the machine (spec/10_state.md), the reasons a step can
stop, and the state right after reset. -/

namespace Sys2Proof.Machine

/-- Issuer memory (R63): the listed bytes, addresses strictly rising, no listed byte equal to what
an unlisted address reads as. -/
abbrev Memory := List Host.Cell

/-- What an address that nothing has written reads as. DESIGN CHOICE, log 4: unsafe, the spec gives
no contents; spec/95 starts its programs from zeros. -/
def Memory.unlisted : Byte := 0

/-- The Transfer Cursor (R39). -/
structure Cursor where
  blocksLeft : Nat := 0
  sgIdx      : Nat := 0
  sgOff      : Nat := 0
  accOff     : Nat := 0
  deriving DecidableEq, Repr, Inhabited

/-- The causes of a fault of the block (R254). -/
inductive FaultReason where
  | windowAccess
  | configOpcode
  | configShape
  | configSize
  | configSgShort
  | configSgRange
  | configNoCommand
  | busyViolation
  | notAttached
  deriving DecidableEq, Repr, Inhabited

/-- The events of the trace (R44, R108). Register events carry the window offset. -/
inductive Event where
  | r8 (off : Nat) (v : Byte)
  | r32 (off : Nat) (v : Word)
  | w8 (off : Nat) (v : Byte)
  | w16 (off : Nat) (v : Half)
  | w32 (off : Nat) (v : Word)
  | mr (addr : Nat) (v : Byte)
  | mw (addr : Nat) (v : Byte)
  | arm (n : Nat)
  | cancel
  | log (k : LogKind)
  | notifyComplete (r : Request)
  | notifyPresence
  | fault (reason : FaultReason)
  deriving DecidableEq, Repr, Inhabited

/-- The register window (R29). A register the block writes holds what was last written; one the
environment supplies holds what it last supplied (log 9). -/
structure Window where
  intStatus : Word
  intEnable : Word
  cmd       : Byte
  cmdCtrl   : Byte
  dataCtrl  : Byte
  abort     : Byte
  arg       : Word
  blksize   : Half
  present   : Word
  power     : Byte
  resp0     : Word
  resp1     : Word
  resp2     : Word
  resp3     : Word
  data      : Word
  deriving DecidableEq, Repr, Inhabited

/-- Why the machine has stopped. -/
inductive Fault where
  /-- Raised by every step once the block has raised a fault: no step of any agent is enabled and
  the fault is never cleared (R253; log 18). Safe: nothing runs where the spec runs nothing. -/
  | halted (reason : FaultReason)
  deriving DecidableEq, Repr

/-- Why a step has no outcome. -/
inductive Refusal where
  /-- Raised by Dispatch for a step that has no meaning yet. Safe. -/
  | notModelled (mnemonic : String)
  /-- Raised by a step whose agent is not enabled in this state (R79, R282; spec/93 treatment
  "refuse"; log 17). Safe: the spec has no such transition. -/
  | notEnabled (mnemonic : String)
  /-- Raised by a rule that acts on an object the active Request does not hold: cmdOf(s, r) or D(s)
  is not defined (R28), or a captured command of unknown shape (R141). No top-level step reaches it
  from a state that meets the engine invariant (log 19). Safe. -/
  | undefinedOperand (rule : String)
  /-- Raised by OP_INVALID: a reserved operation code, which a decoder refuses (R111; log 16). Safe. -/
  | invalidOp (code : Byte)
  /-- Raised by step for an agenda entry that names no step (R111). Safe. -/
  | undecodable (e : DecodeError)
  deriving DecidableEq, Repr

/-- The machine's state. The last six fields are the model's own: no statement rests on their
values. -/
structure State where
  -- engine state (R20)
  attached   : Bool
  req        : Option Request
  curCmd     : Option Role
  curData    : Bool
  dataEarly  : Bool
  cursor     : Cursor
  timer      : Option Nat
  finishPend : Bool
  cardPend   : Bool
  notifyQ    : List Request
  power      : PowerMode
  fault      : Option FaultReason
  trace      : List Event
  -- register window (R29), issuer memory (R63), parameters (R8)
  win        : Window
  mem        : Memory
  params     : Params
  -- the model's own: settled draws (R109), free draws taken, steps to run (R107), free turns taken,
  -- whether the active Request broke a duty (R236; log 26), free results notified
  answers    : List Word
  draws      : Nat
  agenda     : List Entry
  turns      : Nat
  dutyBroken : Bool
  breaches   : Nat
  deriving DecidableEq, Repr

/-- Register values where the spec gives none. DESIGN CHOICE, log 2: unsafe. Zeros, with a card in
the slot, as the programs of spec/95 section 3 start. -/
def Window.unspecified : Window where
  intStatus := 0
  intEnable := 0
  cmd       := 0
  cmdCtrl   := 0
  dataCtrl  := 0
  abort     := 0
  arg       := 0
  blksize   := 0
  present   := 1
  power     := 0
  resp0     := 0
  resp1     := 0
  resp2     := 0
  resp3     := 0
  data      := 0

/-- The state before the first attach (R282). -/
def State.beforeAttach : State where
  attached   := false
  req        := none
  curCmd     := none
  curData    := false
  dataEarly  := false
  cursor     := {}
  timer      := none
  finishPend := false
  cardPend   := false
  notifyQ    := []
  power      := .off
  fault      := none
  trace      := []
  win        := Window.unspecified
  mem        := []
  params     := Params.reference
  answers    := []
  draws      := 0
  agenda     := []
  turns      := 0
  dutyBroken := false
  breaches   := 0

/-- The state right after reset. The block's reset is its attach (R280, log 1): attached, INT_ENABLE
holding IRQ_ENABLE_MASK, and attach's own write in the trace. -/
def State.reset : State :=
  { State.beforeAttach with
    attached := true
    win := { Window.unspecified with intEnable := Params.reference.irqEnableMask }
    trace := [.w32 Params.reference.offIntEnable Params.reference.irqEnableMask] }

end Sys2Proof.Machine
end

