-- ==== Sys2Proof/Machine/Operands.lean ====
section
/-! DEFINITION. Every operand form the spec gives: the register-level encodings (spec/30_encoding.md
R87 to R93, R102), the watchdog count (R127), the register map (R29) and the scatter-list position
(spec/43_transfer_port.md R179). -/

namespace Sys2Proof.Machine

/-! ## Register-level encodings -/

/-- bit(n) of a 32-bit word (R32). -/
def bitMask (n : Nat) : Word := 1#32 <<< n

/-- CMDBYTE (R87). -/
def cmdByte (p : Params) (opcode : Nat) : Byte := p.cmdStartTag ||| BitVec.ofNat 8 opcode

/-- ARGWORD (R88). -/
def argWord (p : Params) (arg : Word) : Word := if p.argSwap then bswap32 arg else arg

/-- RSPCTL (R89). -/
def rspCtl (p : Params) : Shape → Byte
  | .noResponse => 0
  | .short => p.rspTagA
  | .shortBusy => p.rspTagA ||| p.rspTagB
  | .long => p.rspTagC
  | .r3 => p.rspTagD

/-- DATACTL (R90). -/
def dataCtl (p : Params) (dir : Dir) : Byte :=
  (match dir with
    | .read => p.dctlRead
    | .write => p.dctlWrite) ||| p.dctlStart

/-- ABORTCTL (R91). -/
def abortFlag (p : Params) : AbortKind → Byte
  | .cmd => p.abortCmd
  | .data => p.abortData

/-- POWERCTL (R92). -/
def powerCtl (p : Params) : PowerMode → Byte
  | .off => 0
  | .up => 1#8 <<< p.pwrPrimary
  | .on => 1#8 <<< p.pwrPrimary

/-- BLKSZ16 (R93). -/
def blkSz16 (blksz : Nat) : Half := BitVec.ofNat 16 blksz

/-- The reference LONG_RESP_FIX (R102). -/
def swapWords (w : RespWords) : RespWords :=
  { w0 := bswap32 w.w0, w1 := bswap32 w.w1, w2 := bswap32 w.w2, w3 := bswap32 w.w3 }

/-- LONG_RESP_FIX (R102): from the four words read to the four stored. -/
def longRespFix (p : Params) (w : RespWords) : RespWords :=
  match p.longRespFix with
  | .swapEachWord => swapWords w
  | .listed values => (values.lookup w).getD (swapWords w)
  | .unknown n => Config.freeRespFix n w

/-- Four response words as a Command stores them (R141). -/
def Resp.ofWords (w : RespWords) : Resp :=
  { w0 := some w.w0, w1 := some w.w1, w2 := some w.w2, w3 := some w.w3 }

/-! ## Fault codes -/

/-- Codes of the fault reasons (R254). -/
def FaultReason.code : FaultReason → Byte
  | .windowAccess => 1
  | .configOpcode => 2
  | .configShape => 3
  | .configSize => 4
  | .configSgShort => 5
  | .configSgRange => 6
  | .configNoCommand => 7
  | .busyViolation => 8
  | .notAttached => 9

/-- ceil_div (R9), for a positive divisor. -/
def ceilDiv (a b : Nat) : Nat := (a + b - 1) / b

/-- The watchdog arm of a command (R127); hasData is 10_state.md R28's. -/
def timeoutUnits (hasData : Bool) (timeoutMs : Nat) : Nat :=
  if !hasData && decide (timeoutMs > Config.wdLongThresholdMs) then
    ceilDiv timeoutMs Config.wdMsPerUnitDivisor + Config.wdExtraUnits
  else Config.wdDefaultUnits

/-! ## The register map -/

/-- The registers of the window (R29). -/
inductive Reg where
  | intStatus
  | intEnable
  | cmd
  | cmdCtrl
  | dataCtrl
  | abort
  | arg
  | blksize
  | present
  | power
  | resp0
  | resp1
  | resp2
  | resp3
  | data
  deriving DecidableEq, Repr, Inhabited

/-- Every register. -/
def allRegs : List Reg :=
  [.intStatus, .intEnable, .cmd, .cmdCtrl, .dataCtrl, .abort, .arg, .blksize, .present, .power,
    .resp0, .resp1, .resp2, .resp3, .data]

/-- OFF_<name> (R29). -/
def regOff (p : Params) : Reg → Nat
  | .intStatus => p.offIntStatus
  | .intEnable => p.offIntEnable
  | .cmd => p.offCmd
  | .cmdCtrl => p.offCmdCtrl
  | .dataCtrl => p.offDataCtrl
  | .abort => p.offAbort
  | .arg => p.offArg
  | .blksize => p.offBlksize
  | .present => p.offPresent
  | .power => p.offPower
  | .resp0 => p.offResp0
  | .resp1 => p.offResp1
  | .resp2 => p.offResp2
  | .resp3 => p.offResp3
  | .data => p.offData

/-- Width of a register in bytes (R29). -/
def regBytes : Reg → Nat
  | .cmd | .cmdCtrl | .dataCtrl | .abort | .power => 1
  | .blksize => 2
  | _ => 4

/-- The registers the block may read (R29). -/
def regReadable : Reg → Bool
  | .intStatus | .abort | .present | .resp0 | .resp1 | .resp2 | .resp3 | .data => true
  | _ => false

/-- The registers the block may write (R29). -/
def regWritable : Reg → Bool
  | .present | .resp0 | .resp1 | .resp2 | .resp3 => false
  | _ => true

/-- The register at an offset, if any. -/
def regAt (p : Params) (off : Nat) : Option Reg := allRegs.find? (fun r => regOff p r == off)

/-- The parameters describe a window the rules can work with: every register inside it, aligned to
its width, at an offset of its own (R29, R61, R72); status positions distinct and below 32 (D3); tags
as R89 and D4 ask; the start tag clear of the opcode bits (R34); distinct abort flags (R91); the
presence and supply bits inside their registers (R51, R52). The four OFF_RESPn need not follow one
another (log 35). DESIGN CHOICE, log 38: the bytes of two registers at distinct offsets may overlap,
of which the spec says nothing (R67), and each register then still holds its own value. -/
def paramsOk (p : Params) : Bool :=
  let st := [p.stCmdComplete, p.stXferComplete, p.stSpaceAvail, p.stDataAvail, p.stCardInsert,
    p.stCardRemove, p.stCardInt, p.stCmdTimeout, p.stCmdCrc, p.stCmdEndBit, p.stCmdIndex,
    p.stDataTimeout, p.stDataCrc, p.stDataEndBit]
  allRegs.all (fun r => decide (regOff p r + regBytes r ≤ p.windowSize)
      && decide (regOff p r % regBytes r = 0))
    && decide ((allRegs.map (regOff p)).Nodup)
    && st.all (fun n => decide (n < 32)) && decide st.Nodup
    && decide ([0#8, p.rspTagA, p.rspTagB, p.rspTagC, p.rspTagD].Nodup)
    && decide (p.rspTagA ||| p.rspTagB ≠ p.rspTagC) && decide (p.rspTagA ||| p.rspTagB ≠ p.rspTagD)
    && decide (p.cmdStartTag &&& 0x3F#8 = 0)
    && decide (p.abortCmd ≠ p.abortData)
    && decide (p.presentCard < 32) && decide (p.pwrPrimary < 8)

/-! ## Request objects -/

/-- cmdOf (R28) on a Request. -/
def Request.command (r : Request) : Role → Option Command
  | .sbc => r.sbc
  | .primary => r.cmd
  | .stop => r.data.bind (fun d => d.stop)

/-- cmdOf(s, r) (R28). -/
def cmdOf (s : State) (r : Role) : Option Command := s.req.bind (fun q => Request.command q r)

/-- D(s) (R28). -/
def dataOf (s : State) : Option Data := s.req.bind (fun q => q.data)

/-- hasData(c) (R28). -/
def hasData (s : State) (c : Command) : Bool := c.role == .primary && (dataOf s).isSome

/-- A Request with the Command of one role changed. -/
def Request.mapCommand (q : Request) (r : Role) (f : Command → Command) : Request :=
  match r with
  | .sbc => { q with sbc := q.sbc.map f }
  | .primary => { q with cmd := q.cmd.map f }
  | .stop => { q with data := q.data.map (fun d => { d with stop := d.stop.map f }) }

/-- A Request with its Data object changed. -/
def Request.mapData (q : Request) (f : Data → Data) : Request := { q with data := q.data.map f }

/-- A Request with the role of each Command set from the field that holds it (R98, R230). -/
def Request.withRoles (q : Request) : Request :=
  let q1 := Request.mapCommand q .primary (fun c => { c with role := .primary })
  let q2 := Request.mapCommand q1 .sbc (fun c => { c with role := .sbc })
  Request.mapCommand q2 .stop (fun c => { c with role := .stop })

/-- A Command as its issuer must submit it: error Ok, no response word (R236). -/
def Command.untouched (c : Command) : Bool := c.error == .ok && c.resp == {}

/-- Did the issuer keep the duties the block does not check (R236)? -/
def Request.dutiesKept (q : Request) : Bool :=
  q.cmd.all Command.untouched && q.sbc.all Command.untouched
    && q.data.all (fun d => d.error == .ok && d.stop.all Command.untouched)

/-- A Command with what the engine writes on it replaced. -/
def Command.withResult (x : CommandResult) (c : Command) : Command :=
  { c with resp := x.resp, error := x.error }

/-- A Request with what the engine writes on its objects replaced. -/
def Request.withResult (x : RequestResult) (q : Request) : Request where
  cmd := q.cmd.map (Command.withResult x.cmd)
  sbc := q.sbc.map (Command.withResult x.sbc)
  data := q.data.map (fun d => { d with
    bytesXfered := x.bytesXfered
    error := x.dataError
    stop := d.stop.map (Command.withResult x.stop) })

/-- The active Request as it will be notified: with free results where its issuer broke its duties
(R236; log 26). -/
def notified (s : State) (q : Request) : Request :=
  if s.dutyBroken then Request.withResult (Config.freeResult s.breaches) q else q

/-! ## Scatter lists -/

/-- Bytes a scatter list covers (R153). -/
def sgTotal (sg : List SgEntry) : Nat := (sg.map (fun e => e.len)).sum

/-- check_sizes (R151). -/
def sizesOk (d : Data) : Bool :=
  decide (d.blksz ≤ Config.maxBlksz) && decide (d.blocks ≤ Config.maxBlocks)
    && decide (d.blksz * d.blocks ≤ Config.maxXfer) && d.blksz != 0 && d.blocks != 0

/-- The range part of check_sg (R153). -/
def sgInRange (p : Params) (d : Data) : Bool :=
  d.sg.all (fun e => decide (e.addr + e.len ≤ 2 ^ p.memAddrWidth))

/-- The length part of check_sg (R153). -/
def sgCovers (d : Data) : Bool := decide (d.blksz * d.blocks ≤ sgTotal d.sg)

/-- The position after moving past exhausted entries (the loop of R179); fuel is the list's length. -/
def seekFrom (sg : List SgEntry) : Nat → Nat → Nat → Nat × Nat
  | 0, i, o => (i, o)
  | fuel + 1, i, o =>
    match sg[i]? with
    | some e => if o = e.len then seekFrom sg fuel (i + 1) 0 else (i, o)
    | none => (i, o)

/-- The cursor moved past exhausted entries (R179, R184). -/
def seek (sg : List SgEntry) (c : Cursor) : Cursor :=
  let p := seekFrom sg sg.length c.sgIdx c.sgOff
  { c with sgIdx := p.1, sgOff := p.2 }

/-- The issuer-memory address of the byte at the cursor, at MEM_ADDR_WIDTH bits (R64); none past the
list's end. -/
def addrAt (p : Params) (sg : List SgEntry) (c : Cursor) : Option Nat :=
  (sg[c.sgIdx]?).map (fun e => (e.addr + c.sgOff) % 2 ^ p.memAddrWidth)

/-- The addresses of the next n bytes from the cursor, in order, as far as the list reaches (R179). -/
def blockAddrs (p : Params) (sg : List SgEntry) : Nat → Cursor → List Nat
  | 0, _ => []
  | n + 1, c =>
    let c' := seek sg c
    match addrAt p sg c' with
    | some a => a :: blockAddrs p sg n { c' with sgOff := c'.sgOff + 1 }
    | none => []

end Sys2Proof.Machine
end

