-- ==== Sys2Proof/Machine/Flags.lean ====
section
/-! DEFINITION. Every flag computation the spec gives: the category masks of the status word
(spec/10_state.md R32), error classification (R54), the interrupt line (R257), the request phase
(R21), the abort test (R207). -/

namespace Sys2Proof.Machine

/-! ## Category masks (R32) -/

def cardMask (p : Params) : Word := bitMask p.stCardInsert ||| bitMask p.stCardRemove

def cmdErrTo (p : Params) : Word := bitMask p.stCmdTimeout

def cmdErrProt (p : Params) : Word :=
  bitMask p.stCmdCrc ||| bitMask p.stCmdEndBit ||| bitMask p.stCmdIndex

def cmdMask (p : Params) : Word := bitMask p.stCmdComplete ||| cmdErrTo p ||| cmdErrProt p

def dataErrTo (p : Params) : Word := bitMask p.stDataTimeout

def dataErrProt (p : Params) : Word := bitMask p.stDataCrc ||| bitMask p.stDataEndBit

def dataErr (p : Params) : Word := dataErrTo p ||| dataErrProt p

def dataXfer (p : Params) : Word := bitMask p.stDataAvail ||| bitMask p.stSpaceAvail

def dataMask (p : Params) : Word := bitMask p.stXferComplete ||| dataXfer p ||| dataErr p

def cardIntMask (p : Params) : Word := bitMask p.stCardInt

def classified (p : Params) : Word := cardMask p ||| cmdMask p ||| dataMask p ||| cardIntMask p

/-- Does a mask have a bit of another? -/
def overlaps (m k : Word) : Bool := m &&& k != 0

/-! ## Error classification -/

/-- The error of a command mask: Timeout before ProtocolViolation (R136, R54). -/
def cmdError (p : Params) (mask : Word) : Err :=
  if overlaps mask (cmdErrTo p) then .timeout
  else if overlaps mask (cmdErrProt p) then .protocolViolation
  else .ok

/-- The error of a data mask: Timeout before ProtocolViolation (R160, R54). -/
def dataError (p : Params) (mask : Word) : Err :=
  if overlaps mask (dataErrTo p) then .timeout
  else if overlaps mask (dataErrProt p) then .protocolViolation
  else .ok

/-- hwErr (R207): NoMedium runs no abort (C5). -/
def hwErr (e : Err) : Bool := e != .ok && e != .noMedium

/-- needs_abort (R207): the SBC command's error is not tested. -/
def needsAbort (q : Request) : Bool :=
  (match q.cmd with
    | some c => hwErr c.error
    | none => false)
  || (match q.data with
    | some d => hwErr d.error
        || (match d.stop with
          | some c => hwErr c.error
          | none => false)
    | none => false)

/-- The stop condition (R168) under STOP_POLICY b, and its alternative a (spec/93 item 19, C2). -/
def stopWanted (p : Params) (q : Request) (d : Data) (e : Err) : Bool :=
  match p.stopPolicy with
  | .b => d.stop.isSome && (e != .ok || q.sbc.isNone)
  | .a => d.stop.isSome && q.sbc.isNone

/-- Does a data mask move a block (R162)? Not once dataEarly is set, where the parameter follows R287
and not R156 (log 37). -/
def movesBlock (s : State) (mask : Word) : Bool :=
  overlaps mask (dataXfer s.params) && !(s.dataEarly && s.params.earlyBlocks == .left)

/-! ## Derived state -/

/-- The interrupt line (R257). -/
def irqLine (s : State) : Bool := s.attached && overlaps s.win.intStatus s.win.intEnable

/-- The request phases (R21). -/
inductive Phase where
  | idle
  | commandIssued
  | responseReceived
  | dataActive
  | dataComplete
  | completing
  deriving DecidableEq, Repr

/-- The request phase, a function of the state (R21). -/
def phase (s : State) : Phase :=
  if s.req.isNone then .idle
  else if s.finishPend then .completing
  else if s.curCmd.isSome && !(s.curData && s.dataEarly) then .commandIssued
  else if s.curCmd.isNone && s.curData then .dataActive
  else if s.curCmd.isSome && s.curData && s.dataEarly then .dataComplete
  else .responseReceived

end Sys2Proof.Machine
end

