-- ==== Sys2Proof/Machine/Ops.lean ====
section
/-! DEFINITION. The named operations over the engine state, the register window and issuer memory
(spec/00_scope.md R10, R11; spec/20_memory.md; spec/40_register_interface.md), and raising a fault
(R253), the one exception entry of this block; there is no return from it. -/

namespace Sys2Proof.Machine

/-! ## How an operation ends -/

/-- The end of an operation inside a step: it goes on with a value, or it raised a fault and the
step ends with every write before the raise standing (R253), or it acts on an object that does not
exist (log 19). -/
inductive Res (α : Type) where
  | ok (a : α) (s : State)
  | raised (s : State)
  | stuck (r : Refusal)
  deriving Repr

/-- Sequential order within a rule (R12). -/
def Res.bind {α β : Type} (x : Res α) (f : α → State → Res β) : Res β :=
  match x with
  | .ok a s => f a s
  | .raised s => .raised s
  | .stuck r => .stuck r

/-- The three outcomes of one step. -/
abbrev Answer := Host.Outcome State Fault Refusal

/-- What a step answers: a raise is a NEXT state that carries the fault (R253; log 18). -/
def Res.outcome (x : Res Unit) : Answer :=
  match x with
  | .ok _ s => .next s
  | .raised s => .next s
  | .stuck r => .refused r

/-- The next state of an operation that goes on with no value. -/
def done (s : State) : Res Unit := .ok () s

/-! ## Trace, faults, timer, deferred work -/

/-- trace += e (R44). -/
def record (e : Event) (s : State) : State := { s with trace := s.trace ++ [e] }

/-- raise Fault(reason) (R253): the fault is set and recorded, and the step ends here. -/
def raise {α : Type} (reason : FaultReason) (s : State) : Res α :=
  .raised (record (.fault reason) { s with fault := some reason })

/-- log(kind) (R123). -/
def logEvent (k : LogKind) (s : State) : State := record (.log k) s

/-- arm(n) (R129). -/
def armTimer (n : Nat) (s : State) : State := record (.arm n) { s with timer := some n }

/-- cancel() (R130). -/
def cancelTimer (s : State) : State := record .cancel { s with timer := none }

/-- schedule(W) (R41). -/
def scheduleWork (w : WorkUnit) (s : State) : State :=
  match w with
  | .finish => { s with finishPend := true }
  | .card => { s with cardPend := true }

/-! ## The active Request's objects -/

/-- Writes a field of cmdOf(s, r) (R11, R28). -/
def updCmd (r : Role) (f : Command → Command) (s : State) : State :=
  { s with req := s.req.map (fun q => Request.mapCommand q r f) }

/-- Writes a field of D(s) (R11, R28). -/
def updData (f : Data → Data) (s : State) : State :=
  { s with req := s.req.map (fun q => Request.mapData q f) }

/-! ## Draws (R121) -/

/-- One word the environment supplies: the next it has already settled (R109), else a free value
that nothing constrains (log 7). -/
def draw (s : State) : Word × State :=
  match s.answers with
  | v :: rest => (v, { s with answers := rest })
  | [] => (Config.freeWord s.draws, { s with draws := s.draws + 1 })

/-! ## The register window -/

/-- The window check of R62 for one access. -/
def check (s : State) (off bytes : Nat) (allowed : Reg → Bool) : Option Reg :=
  if s.attached && decide (off + bytes ≤ s.params.windowSize) && decide (off % bytes = 0) then
    match regAt s.params off with
    | some r => if regBytes r = bytes && allowed r then some r else none
    | none => none
  else none

/-- The value an 8-bit register shows. ABORT is the environment's draw, the low byte of it, and the
register then holds it (R50, R121; log 9); the rest are not readable and are never asked. -/
def show8 (r : Reg) (s : State) : Byte × State :=
  match r with
  | .abort =>
    let d := draw s
    let v : Byte := d.1.setWidth 8
    (v, { d.2 with win := { d.2.win with abort := v } })
  | _ => (0, s)

/-- What a read of PRESENT shows of the word drawn for it: all of it (R116), or the card bit the register
holds and the rest drawn (R51, R241), by the parameter presentRead (log 8). -/
def presentValue (s : State) (drawn : Word) : Word :=
  let b := bitMask s.params.presentCard
  match s.params.presentRead with
  | .drawn => drawn
  | .slot => (drawn &&& ~~~b) ||| (s.win.present &&& b)

/-- The value a 32-bit register shows. INT_STATUS is latched (R116). PRESENT, RESPn and DATA are drawn
(R45, R47, R51, R121; log 8), and the register then holds what it showed (log 9). The rest are not
readable and are never asked. -/
def show32 (r : Reg) (s : State) : Word × State :=
  match r with
  | .intStatus => (s.win.intStatus, s)
  | .present =>
    let d := draw s
    let v := presentValue s d.1
    (v, { d.2 with win := { d.2.win with present := v } })
  | .resp0 => let d := draw s; (d.1, { d.2 with win := { d.2.win with resp0 := d.1 } })
  | .resp1 => let d := draw s; (d.1, { d.2 with win := { d.2.win with resp1 := d.1 } })
  | .resp2 => let d := draw s; (d.1, { d.2 with win := { d.2.win with resp2 := d.1 } })
  | .resp3 => let d := draw s; (d.1, { d.2 with win := { d.2.win with resp3 := d.1 } })
  | .data => let d := draw s; (d.1, { d.2 with win := { d.2.win with data := d.1 } })
  | _ => (0, s)

/-- The window after an 8-bit register latches v (R74, R117). -/
def latch8 (r : Reg) (v : Byte) (w : Window) : Window :=
  match r with
  | .cmd => { w with cmd := v }
  | .cmdCtrl => { w with cmdCtrl := v }
  | .dataCtrl => { w with dataCtrl := v }
  | .abort => { w with abort := v }
  | .power => { w with power := v }
  | _ => w

/-- The window after a 32-bit register takes v: INT_STATUS is write-one-to-clear (R30, R118). -/
def latch32 (r : Reg) (v : Word) (w : Window) : Window :=
  match r with
  | .intStatus => { w with intStatus := w.intStatus &&& ~~~v }
  | .intEnable => { w with intEnable := v }
  | .arg => { w with arg := v }
  | .data => { w with data := v }
  | _ => w

/-- Read8 (R115). -/
def read8 (off : Nat) (s : State) : Res Byte :=
  match check s off 1 regReadable with
  | none => raise .windowAccess s
  | some r =>
    let x := show8 r s
    .ok x.1 (record (.r8 off x.1) x.2)

/-- Read32 (R116). -/
def read32 (off : Nat) (s : State) : Res Word :=
  match check s off 4 regReadable with
  | none => raise .windowAccess s
  | some r =>
    let x := show32 r s
    .ok x.1 (record (.r32 off x.1) x.2)

/-- Write8 (R117). -/
def write8 (off : Nat) (v : Byte) (s : State) : Res Unit :=
  match check s off 1 regWritable with
  | none => raise .windowAccess s
  | some r => done { record (.w8 off v) s with win := latch8 r v s.win }

/-- Write32 (R118). -/
def write32 (off : Nat) (v : Word) (s : State) : Res Unit :=
  match check s off 4 regWritable with
  | none => raise .windowAccess s
  | some r => done { record (.w32 off v) s with win := latch32 r v s.win }

/-- Write16 (R119): BLKSIZE is the only 16-bit register. -/
def write16 (off : Nat) (v : Half) (s : State) : Res Unit :=
  match check s off 2 regWritable with
  | none => raise .windowAccess s
  | some _ => done { record (.w16 off v) s with win := { s.win with blksize := v } }

/-- Read8 of a register by name. -/
def readReg8 (r : Reg) (s : State) : Res Byte := read8 (regOff s.params r) s

/-- Read32 of a register by name. -/
def readReg32 (r : Reg) (s : State) : Res Word := read32 (regOff s.params r) s

/-- Write8 of a register by name. -/
def writeReg8 (r : Reg) (v : Byte) (s : State) : Res Unit := write8 (regOff s.params r) v s

/-- Write32 of a register by name. -/
def writeReg32 (r : Reg) (v : Word) (s : State) : Res Unit := write32 (regOff s.params r) v s

/-- Write16 of a register by name. -/
def writeReg16 (r : Reg) (v : Half) (s : State) : Res Unit := write16 (regOff s.params r) v s

/-! ## Issuer memory -/

/-- The byte at an address. -/
def Memory.read : Memory → Nat → Byte
  | [], _ => Memory.unlisted
  | (a, b) :: m, x => if x = a then b else Memory.read m x

/-- Storing a byte, keeping the canonical form. -/
def Memory.write : Memory → Nat → Byte → Memory
  | [], x, v => if v = Memory.unlisted then [] else [(x, v)]
  | (a, b) :: m, x, v =>
    if x < a then (if v = Memory.unlisted then (a, b) :: m else (x, v) :: (a, b) :: m)
    else if x = a then (if v = Memory.unlisted then m else (x, v) :: m)
    else (a, b) :: Memory.write m x v

/-- The canonical form: addresses strictly rising, no entry equal to what an unlisted address reads as. -/
def Memory.wf : Memory → Bool
  | [] => true
  | (a, b) :: m => b != Memory.unlisted && m.all (fun c => decide (a < c.1)) && Memory.wf m

/-- MemRead(addr, 1) (R10, R66). -/
def memRead (a : Nat) (s : State) : Byte × State :=
  let b := Memory.read s.mem a
  (b, record (.mr a b) s)

/-- MemWrite(addr, 1, v) (R10, R66). -/
def memWrite (a : Nat) (v : Byte) (s : State) : State :=
  record (.mw a v) { s with mem := Memory.write s.mem a v }

/-! ## Reset and gates -/

/-- reset_state() (R280): the engine fields at their reset values. What R280 leaves as it was stays:
power (log 3), fault, the trace, the window, and everything outside the engine. -/
def resetEngine (s : State) : State :=
  { s with
    attached := false
    req := none
    curCmd := none
    curData := false
    dataEarly := false
    cursor := {}
    timer := none
    finishPend := false
    cardPend := false
    notifyQ := []
    dutyBroken := false }

/-- Nothing is enabled once the block has raised a fault (R253; log 18). -/
def whenLive (s : State) (k : State → Answer) : Answer :=
  match s.fault with
  | some r => .fault (.halted r)
  | none => k s

/-- A step of an agent that must be enabled (R79; log 17). -/
def whenEnabled (mnemonic : String) (enabled : Bool) (s : State)
    (k : State → Answer) : Answer :=
  whenLive s (fun t => if enabled then k t else .refused (.notEnabled mnemonic))

end Sys2Proof.Machine
end

