-- ==== Sys2Proof/Machine/Engine.lean ====
section
/-! DEFINITION. The rules the steps share, in the order they call each other: the transfer port
(spec/43), prepare and trigger (spec/42), issue (spec/41), the abort sequence (spec/45), finish
(spec/42), finish_command and the command interrupt (spec/41), the data interrupt (spec/42), the
dispatcher (spec/44), the request-finish work and the watchdog (spec/45). -/

namespace Sys2Proof.Machine

/-! ## Transfer port -/

/-- cur_addr() (R179): moves the cursor past exhausted entries and gives the byte's address; past
the list's end it raises ConfigSgShort (R183). -/
def curAddr (sg : List SgEntry) (s : State) : Res Nat :=
  let t := { s with cursor := seek sg s.cursor }
  match addrAt t.params sg t.cursor with
  | some a => .ok a t
  | none => raise .configSgShort t

/-- The cursor one byte on (R177, R178). -/
def bumpOff (s : State) : State :=
  { s with cursor := { s.cursor with sgOff := s.cursor.sgOff + 1 } }

/-- Sets the byte offset within the accumulator (R39). -/
def setAccOff (k : Nat) (s : State) : State := { s with cursor := { s.cursor with accOff := k } }

/-- The word whose bytes are still to be consumed: a fresh one from the data port when none are left
(R177). -/
def refill (acc : Word) (avail : Nat) (s : State) : Res (Word × Nat) :=
  if avail = 0 then (readReg32 .data s).bind (fun v t => .ok (v, 4) t) else .ok (acc, avail) s

/-- The byte loop of read_block (R177): n bytes to go, avail bytes of acc not yet consumed. -/
def readBytes (sg : List SgEntry) : Nat → Word → Nat → State → Res Unit
  | 0, _, _, s => done s
  | n + 1, acc, avail, s =>
    (refill acc avail s).bind fun x s1 =>
    (curAddr sg s1).bind fun a s2 =>
    readBytes sg n (x.1 >>> 8) (x.2 - 1) (bumpOff (memWrite a (byteOf x.1 0) s2))

/-- read_block(n) (R177). Bytes left in the accumulator are discarded (R176). -/
def readBlock (sg : List SgEntry) (n : Nat) (s : State) : Res Unit :=
  (readBytes sg n 0 0 s).bind fun _ t => done (setAccOff 0 t)

/-- Holds one more byte in lane k of the accumulator (R178). -/
def intoLane (acc : Word) (k : Nat) (b : Byte) : Word := acc ||| (b.setWidth 32 <<< (8 * k))

/-- Writes the accumulator out when it is full (R178). -/
def flushFull (acc : Word) (s : State) : Res Word :=
  if s.cursor.accOff = 4 then (writeReg32 .data acc s).bind fun _ t => .ok 0 (setAccOff 0 t)
  else .ok acc s

/-- The byte loop of write_block (R178); the bytes held are counted by cursor.accOff. -/
def writeBytes (sg : List SgEntry) : Nat → Word → State → Res Word
  | 0, acc, s => .ok acc s
  | n + 1, acc, s =>
    (curAddr sg s).bind fun a s1 =>
    let x := memRead a s1
    let s2 := bumpOff x.2
    let k := s2.cursor.accOff
    (flushFull (intoLane acc k x.1) (setAccOff (k + 1) s2)).bind fun acc' s3 =>
    writeBytes sg n acc' s3

/-- write_block(n) (R178): the partial word is flushed once, at the block's end. -/
def writeBlock (sg : List SgEntry) (n : Nat) (s : State) : Res Unit :=
  (writeBytes sg n 0 (setAccOff 0 s)).bind fun acc t =>
  (if t.cursor.accOff > 0 then writeReg32 .data acc t else done t).bind fun _ u =>
  done (setAccOff 0 u)

/-- One block in the Data object's own direction (R162, R175). -/
def moveBlock (d : Data) (s : State) : Res Unit :=
  match d.dir with
  | .read => readBlock d.sg d.blksz s
  | .write => writeBlock d.sg d.blksz s

/-- transfer_pio() (R175, R180). -/
def transferPio (s : State) : Res Unit :=
  if s.cursor.blocksLeft = 0 then done s
  else match dataOf s with
    | none => .stuck (.undefinedOperand "PIO")
    | some d =>
      (moveBlock d s).bind fun _ t =>
      done { t with cursor := { t.cursor with blocksLeft := t.cursor.blocksLeft - 1 } }

/-! ## Prepare and trigger -/

/-- trigger_block(size, dir) (R152). -/
def triggerBlock (size : Half) (dir : Dir) (s : State) : Res Unit :=
  (writeReg16 .blksize size s).bind fun _ t =>
  writeReg8 .dataCtrl (dataCtl t.params dir) t

/-- prepare() (R150): the size checks, then the scatter-list checks, then the Data phase is attached
and its first block started. DESIGN CHOICE, log 36: with no active Request, where the rule says
nothing, there is no Data object either and it does nothing. -/
def prepareData (s : State) : Res Unit :=
  match dataOf s with
  | none => done s
  | some d =>
    if !sizesOk d then raise .configSize s
    else if !sgInRange s.params d then raise .configSgRange s
    else if !sgCovers d then raise .configSgShort s
    else
      let t := updData (fun x => { x with bytesXfered := 0 }) s
      triggerBlock (blkSz16 d.blksz) d.dir
        { t with
          cursor := { blocksLeft := d.blocks, sgIdx := 0, sgOff := 0, accOff := 0 }
          dataEarly := false
          curData := true }

/-! ## Issue -/

/-- The last line of issue (R125, R132): the control byte of a known shape launches the command, an
unknown shape faults. -/
def launch (shapeCode : BitVec 3) (s : State) : Res Unit :=
  match Shape.ofCode shapeCode with
  | none => raise .configShape s
  | some sh => writeReg8 .cmdCtrl (rspCtl s.params sh) s

/-- The register writes of issue (R128): opcode, argument, control byte, in that order. -/
def sendCommand (c : Command) (s : State) : Res Unit :=
  if c.opcode ≥ 64 then raise .configOpcode s
  else
    (writeReg8 .cmd (cmdByte s.params c.opcode) s).bind fun _ s1 =>
    (writeReg32 .arg (argWord s1.params c.arg) s1).bind fun _ s2 =>
    launch c.shapeCode s2

/-- issue(r) (R125). -/
def issue (r : Role) (s : State) : Res Unit :=
  match cmdOf s r with
  | none => .stuck (.undefinedOperand "ISSUE")
  | some c =>
    let s1 := armTimer (timeoutUnits (hasData s c) c.timeoutMs) { s with curCmd := some r }
    (if hasData s c then prepareData s1 else done s1).bind fun _ s2 =>
    sendCommand c s2

/-! ## Abort sequence -/

/-- The poll loop of R214: at most n reads, then the timeout is logged. -/
def pollAbort (flag : Byte) : Nat → State → Res Unit
  | 0, s => done (logEvent .abortTimeout s)
  | n + 1, s =>
    (readReg8 .abort s).bind fun v t => if v &&& flag = 0 then done t else pollAbort flag n t

/-- abort(flag) (R214). -/
def abortSequence (k : AbortKind) (s : State) : Res Unit :=
  let flag := abortFlag s.params k
  (writeReg8 .abort flag s).bind fun _ t => pollAbort flag Config.abortPollMax t

/-- The pair of abort sequences, cmd-abort first (R169, R217). -/
def abortBoth (s : State) : Res Unit :=
  (abortSequence .cmd s).bind fun _ t => abortSequence .data t

/-! ## Finish -/

/-- What finish records on the Data object (R166, R167). -/
def closeData (e : Err) (d : Data) : Data :=
  { d with error := e, bytesXfered := if e = .ok then d.blksz * d.blocks else 0 }

/-- finish(e) (R166). -/
def finishData (e : Err) (s : State) : Res Unit :=
  match s.req with
  | none => .stuck (.undefinedOperand "FINISH_DATA")
  | some q =>
    match q.data with
    | none => .stuck (.undefinedOperand "FINISH_DATA")
    | some d =>
      let t := updData (closeData e) { s with curData := false, dataEarly := false }
      if stopWanted t.params q d e then
        (if e = .ok then done t else abortBoth t).bind fun _ u => issue .stop u
      else done (scheduleWork .finish t)

/-! ## Command interrupt -/

/-- capture_response (R141). A command of unknown shape is never outstanding without a fault; the
rule's cases give it none (log 19). DESIGN CHOICE, log 35: word i is read at OFF_RESPi, a parameter of
its own (R29), where R141 writes OFF_RESP0 + 4*i; the four words are stored once all are read, since
LONG_RESP_FIX takes all four (R102). -/
def captureResponse (r : Role) (c : Command) (s : State) : Res Unit :=
  let p := s.params
  match Shape.ofCode c.shapeCode with
  | none => .stuck (.undefinedOperand "FINISH_CMD")
  | some .noResponse => done s
  | some .long =>
    (readReg32 .resp0 s).bind fun v0 s0 =>
    (readReg32 .resp1 s0).bind fun v1 s1 =>
    (readReg32 .resp2 s1).bind fun v2 s2 =>
    (readReg32 .resp3 s2).bind fun v3 s3 =>
    done (updCmd r (fun x => { x with resp := Resp.ofWords (longRespFix p ⟨v0, v1, v2, v3⟩) }) s3)
  | some _ =>
    (readReg32 .resp0 s).bind fun v t =>
    done (updCmd r (fun x => { x with resp := { x.resp with w0 := some v } }) t)

/-- What finish_command does once the slot is empty (R142 to R145). -/
def afterCommand (r : Role) (s : State) : Res Unit :=
  if r = .sbc then issue .primary s
  else if !s.curData then done (scheduleWork .finish s)
  else if s.dataEarly then
    match dataOf s with
    | none => .stuck (.undefinedOperand "FINISH_CMD")
    | some d => finishData d.error s
  else done s

/-- finish_command() (R140). -/
def finishCommand (s : State) : Res Unit :=
  match s.curCmd with
  | none => .stuck (.undefinedOperand "FINISH_CMD")
  | some r =>
    match cmdOf s r with
    | none => .stuck (.undefinedOperand "FINISH_CMD")
    | some c =>
      (captureResponse r c s).bind fun _ t =>
      afterCommand r { updCmd r (fun x => { x with error := .ok }) t with curCmd := none }

/-- on_command_interrupt(mask) (R133). -/
def onCommandInterrupt (mask : Word) (s : State) : Res Unit :=
  match s.curCmd with
  | none => done (logEvent .spuriousCmd s)
  | some r =>
    match cmdOf s r with
    | none => .stuck (.undefinedOperand "CMD_IRQ")
    | some c =>
      let e := cmdError s.params mask
      if e ≠ .ok then done (scheduleWork .finish (updCmd r (fun x => { x with error := e }) s))
      else
        let t := if Shape.ofCode c.shapeCode = some .shortBusy ∧ s.curData then
            logEvent .busyWithData s else s
        if overlaps mask (bitMask s.params.stCmdComplete) then finishCommand t else done t

/-! ## Data interrupt -/

/-- Sets the error of cmdOf(s, r) to Timeout and schedules the request-finish work (R159, R221). -/
def forceTimeout (r : Role) (s : State) : Res Unit :=
  match cmdOf s r with
  | none => .stuck (.undefinedOperand "TIMEOUT")
  | some _ => done (scheduleWork .finish (updCmd r (fun x => { x with error := .timeout }) s))

/-- Is the outstanding command busy-type (R157)? DESIGN CHOICE, log 36: not where the slot names a
Command that the active Request does not hold. -/
def busyOutstanding (s : State) : Bool :=
  match s.curCmd.bind (cmdOf s) with
  | some c => Shape.ofCode c.shapeCode == some .shortBusy
  | none => false

/-- The data interrupt with no Data phase attached (R157 to R159). -/
def onDataNoPhase (mask : Word) (s : State) : Res Unit :=
  if busyOutstanding s && overlaps mask (bitMask s.params.stXferComplete) then finishCommand s
  else
    let t := logEvent .spuriousData s
    match s.curCmd with
    | none => done t
    | some r => if overlaps mask (dataErr s.params) then forceTimeout r t else done t

/-- The transfer-complete branch (R163 to R165). -/
def onTransferComplete (d : Data) (s : State) : Res Unit :=
  if s.curCmd.isSome then done { s with dataEarly := true }
  else if s.cursor.blocksLeft > 0 then triggerBlock (blkSz16 d.blksz) d.dir s
  else finishData .ok s

/-- on_data_interrupt(mask) (R156). A transfer request that comes once dataEarly is set moves a block or
none by the parameter earlyBlocks, since R156 and R287 differ there (log 37). -/
def onDataInterrupt (mask : Word) (s : State) : Res Unit :=
  if !s.curData then onDataNoPhase mask s
  else match dataOf s with
    | none => .stuck (.undefinedOperand "DATA_IRQ")
    | some d =>
      let e := dataError s.params mask
      if e ≠ .ok then finishData e s
      else
        (if movesBlock s mask then transferPio s else done s).bind fun _ t =>
        if overlaps mask (bitMask s.params.stXferComplete) then onTransferComplete d t else done t

/-! ## Dispatcher -/

/-- One category of the dispatcher (R191): its bits, if any, are written back, then handled. -/
def acknowledge (bits : Word) (handler : State → Res Unit) (s : State) : Res Unit :=
  if bits = 0 then done s
  else (writeReg32 .intStatus bits s).bind fun _ t => handler t

/-- The log of the remaining bits (R196). -/
def logRemaining (m : Word) (s : State) : Res Unit :=
  let p := s.params
  let t := if overlaps m (cardIntMask p) then logEvent (.cardIntBits (m &&& cardIntMask p)) s else s
  done (if overlaps m (~~~classified p) then logEvent (.unclassifiedBits (m &&& ~~~classified p)) t
    else t)

/-- The card-presence bits of a status word (R190 step 2). -/
def cardPart (p : Params) (st : Word) : Word := st &&& cardMask p

/-- The command bits of a status word, the card bits stripped (R190 step 3). -/
def cmdPart (p : Params) (st : Word) : Word := st &&& ~~~cardMask p &&& cmdMask p

/-- The data bits, the card and command bits stripped (R190 step 4). -/
def dataPart (p : Params) (st : Word) : Word := st &&& ~~~cardMask p &&& ~~~cmdMask p &&& dataMask p

/-- The remaining bits (R190 step 5). -/
def restPart (p : Params) (st : Word) : Word :=
  st &&& ~~~cardMask p &&& ~~~cmdMask p &&& ~~~dataMask p

/-- The card and command categories of a status word (R190 steps 2 and 3). -/
def dispatchFront (st : Word) (s : State) : Res Unit :=
  (acknowledge (cardPart s.params st) (fun t => done (scheduleWork .card t)) s).bind fun _ t =>
  acknowledge (cmdPart t.params st) (onCommandInterrupt (cmdPart t.params st)) t

/-- The data category and the rest (R190 steps 4 and 5). -/
def dispatchBack (st : Word) (s : State) : Res Unit :=
  (acknowledge (dataPart s.params st) (onDataInterrupt (dataPart s.params st)) s).bind fun _ t =>
  acknowledge (restPart t.params st) (logRemaining (restPart t.params st)) t

/-- The four categories of a status word in order (R190 steps 2 to 5). -/
def dispatchWord (st : Word) (s : State) : Res Unit :=
  (dispatchFront st s).bind fun _ t => dispatchBack st t

/-- Is a status word spurious (R192)? -/
def spuriousWord (st : Word) : Bool := st == 0 || st == BitVec.allOnes 32

/-- dispatch() (R190). -/
def dispatch (s : State) : Res Unit :=
  (readReg32 .intStatus s).bind fun st t => if spuriousWord st then done t else dispatchWord st t

/-! ## Request-finish work and watchdog -/

/-- The detach of R205 and R206, ending with the Request in notifyQ (R208) as it will be notified
(R236; log 26). -/
def detachRequest (q : Request) (s : State) : State :=
  { s with
    req := none
    curCmd := none
    curData := false
    dataEarly := false
    cursor := {}
    notifyQ := s.notifyQ ++ [notified s q]
    dutyBroken := false
    breaches := if s.dutyBroken then s.breaches + 1 else s.breaches }

/-- request_finish_work() (R205). -/
def requestFinish (s : State) : Res Unit :=
  let s0 := { s with finishPend := false }
  match s0.req with
  | none => done s0
  | some q =>
    let s1 := cancelTimer s0
    (if needsAbort q then abortBoth s1 else done s1).bind fun _ s2 => done (detachRequest q s2)

/-- watchdog_fire() (R218). -/
def watchdogFire (s : State) : Res Unit :=
  let s0 := { s with timer := none }
  match s0.req with
  | none => done s0
  | some _ =>
    if s0.curData then finishData .timeout s0 else forceTimeout (s0.curCmd.getD .primary) s0

/-! ## Environment -/

/-- env_raise(m) (R240). -/
def envRaise (m : Word) (s : State) : State :=
  { s with win := { s.win with intStatus := s.win.intStatus ||| m } }

/-- env_card(b) (R241): the PRESENT_CARD bit of PRESENT and no other (log 8). -/
def envCard (b : Bool) (s : State) : State :=
  let k := bitMask s.params.presentCard
  { s with win := { s.win with
      present := if b then s.win.present ||| k else s.win.present &&& ~~~k } }

end Sys2Proof.Machine
end

