-- ==== Sys2Proof/Machine/Command.lean ====
section
/-! DEFINITION. The command/response engine steps (spec/41_command_engine.md). -/

namespace Sys2Proof.Machine

/-- ISSUE (R125). -/
def execIssue (r : Role) (s : State) : Answer :=
  whenLive s (fun t => (issue r t).outcome)

/-- ARM (R129). -/
def execArm (n : Nat) (s : State) : Answer :=
  whenLive s (fun t => (done (armTimer n t)).outcome)

/-- CANCEL (R130). -/
def execCancel (s : State) : Answer :=
  whenLive s (fun t => (done (cancelTimer t)).outcome)

/-- CMD_IRQ (R133), on any mask: the precondition of R134 is its caller's (log 12). -/
def execCmdIrq (mask : Word) (s : State) : Answer :=
  whenLive s (fun t => (onCommandInterrupt mask t).outcome)

/-- FINISH_CMD (R140). -/
def execFinishCmd (s : State) : Answer :=
  whenLive s (fun t => (finishCommand t).outcome)

end Sys2Proof.Machine
end

