-- ==== Sys2Proof/Machine/Completion.lean ====
section
/-! DEFINITION. The completion, card-presence, abort and watchdog steps (spec/45_completion_watchdog.md). -/

namespace Sys2Proof.Machine

/-- WORK_FINISH (R205), enabled while finishPend. -/
def execWorkFinish (s : State) : Answer :=
  whenEnabled "WORK_FINISH" s.finishPend s (fun t => (requestFinish t).outcome)

/-- WORK_CARD (R212), enabled while cardPend. -/
def execWorkCard (s : State) : Answer :=
  whenEnabled "WORK_CARD" s.cardPend s (fun t =>
    (done (record .notifyPresence { t with cardPend := false })).outcome)

/-- WDOG (R218), enabled while the timer is armed. -/
def execWdog (s : State) : Answer :=
  whenEnabled "WDOG" s.timer.isSome s (fun t => (watchdogFire t).outcome)

/-- ABORT_SEQ (R214). -/
def execAbortSeq (k : AbortKind) (s : State) : Answer :=
  whenLive s (fun t => (abortSequence k t).outcome)

/-- SCHEDULE (R41). -/
def execSchedule (w : WorkUnit) (s : State) : Answer :=
  whenLive s (fun t => (done (scheduleWork w t)).outcome)

end Sys2Proof.Machine
end

