-- ==== Sys2Proof/Machine/DataSession.lean ====
section
/-! DEFINITION. The data session engine steps (spec/42_data_session.md). -/

namespace Sys2Proof.Machine

/-- PREPARE (R150). -/
def execPrepare (s : State) : Answer :=
  whenLive s (fun t => (prepareData t).outcome)

/-- TRIGGER_BLOCK (R152), on any size: its range is its caller's (log 12). -/
def execTriggerBlock (size : Half) (dir : Dir) (s : State) : Answer :=
  whenLive s (fun t => (triggerBlock size dir t).outcome)

/-- DATA_IRQ (R156), on any mask: the precondition of R155 is its caller's (log 12). -/
def execDataIrq (mask : Word) (s : State) : Answer :=
  whenLive s (fun t => (onDataInterrupt mask t).outcome)

/-- FINISH_DATA (R166). -/
def execFinishData (e : Err) (s : State) : Answer :=
  whenLive s (fun t => (finishData e t).outcome)

end Sys2Proof.Machine
end

