-- ==== Sys2Proof/Machine/Dispatcher.lean ====
section
/-! DEFINITION. The interrupt dispatcher steps and the status words it reads (spec/44_dispatcher.md). -/

namespace Sys2Proof.Machine

/-- IRQ (R190), enabled while attached (R257). -/
def execIrq (s : State) : Answer :=
  whenEnabled "IRQ" s.attached s (fun t => (dispatch t).outcome)

/-- A status word raised by the environment and dispatched: RAISE_IRQ of R110 (log 14). The dispatcher
runs while attached. -/
def raiseIrq (mnemonic : String) (w : Word) (s : State) : Answer :=
  whenEnabled mnemonic s.attached s (fun t => (dispatch (envRaise w t)).outcome)

/-- ST_CMD_COMPLETE (R31): the word w, with this bit set, raised and dispatched (R94, R190; log 14). -/
def execStCmdComplete (w : Word) (s : State) : Answer :=
  raiseIrq "ST_CMD_COMPLETE" (w ||| bitMask s.params.stCmdComplete) s

/-- ST_XFER_COMPLETE (R31): the word w, with this bit set, raised and dispatched (R94, R190; log 14). -/
def execStXferComplete (w : Word) (s : State) : Answer :=
  raiseIrq "ST_XFER_COMPLETE" (w ||| bitMask s.params.stXferComplete) s

/-- ST_SPACE_AVAIL (R31): the word w, with this bit set, raised and dispatched (R94, R190; log 14). -/
def execStSpaceAvail (w : Word) (s : State) : Answer :=
  raiseIrq "ST_SPACE_AVAIL" (w ||| bitMask s.params.stSpaceAvail) s

/-- ST_DATA_AVAIL (R31): the word w, with this bit set, raised and dispatched (R94, R190; log 14). -/
def execStDataAvail (w : Word) (s : State) : Answer :=
  raiseIrq "ST_DATA_AVAIL" (w ||| bitMask s.params.stDataAvail) s

/-- ST_CARD_INSERT (R31): the word w, with this bit set, raised and dispatched (R94, R190; log 14). -/
def execStCardInsert (w : Word) (s : State) : Answer :=
  raiseIrq "ST_CARD_INSERT" (w ||| bitMask s.params.stCardInsert) s

/-- ST_CARD_REMOVE (R31): the word w, with this bit set, raised and dispatched (R94, R190; log 14). -/
def execStCardRemove (w : Word) (s : State) : Answer :=
  raiseIrq "ST_CARD_REMOVE" (w ||| bitMask s.params.stCardRemove) s

/-- ST_CARD_INT (R31): the word w, with this bit set, raised and dispatched (R94, R190; log 14). -/
def execStCardInt (w : Word) (s : State) : Answer :=
  raiseIrq "ST_CARD_INT" (w ||| bitMask s.params.stCardInt) s

/-- ST_CMD_TIMEOUT (R31): the word w, with this bit set, raised and dispatched (R94, R190; log 14). -/
def execStCmdTimeout (w : Word) (s : State) : Answer :=
  raiseIrq "ST_CMD_TIMEOUT" (w ||| bitMask s.params.stCmdTimeout) s

/-- ST_CMD_CRC (R31): the word w, with this bit set, raised and dispatched (R94, R190; log 14). -/
def execStCmdCrc (w : Word) (s : State) : Answer :=
  raiseIrq "ST_CMD_CRC" (w ||| bitMask s.params.stCmdCrc) s

/-- ST_CMD_END_BIT (R31): the word w, with this bit set, raised and dispatched (R94, R190; log 14). -/
def execStCmdEndBit (w : Word) (s : State) : Answer :=
  raiseIrq "ST_CMD_END_BIT" (w ||| bitMask s.params.stCmdEndBit) s

/-- ST_CMD_INDEX (R31): the word w, with this bit set, raised and dispatched (R94, R190; log 14). -/
def execStCmdIndex (w : Word) (s : State) : Answer :=
  raiseIrq "ST_CMD_INDEX" (w ||| bitMask s.params.stCmdIndex) s

/-- ST_DATA_TIMEOUT (R31): the word w, with this bit set, raised and dispatched (R94, R190; log 14). -/
def execStDataTimeout (w : Word) (s : State) : Answer :=
  raiseIrq "ST_DATA_TIMEOUT" (w ||| bitMask s.params.stDataTimeout) s

/-- ST_DATA_CRC (R31): the word w, with this bit set, raised and dispatched (R94, R190; log 14). -/
def execStDataCrc (w : Word) (s : State) : Answer :=
  raiseIrq "ST_DATA_CRC" (w ||| bitMask s.params.stDataCrc) s

/-- ST_DATA_END_BIT (R31): the word w, with this bit set, raised and dispatched (R94, R190; log 14). -/
def execStDataEndBit (w : Word) (s : State) : Answer :=
  raiseIrq "ST_DATA_END_BIT" (w ||| bitMask s.params.stDataEndBit) s

/-- ST_UNCLASSIFIED (R104): the word w raised and dispatched (R94, R190, R196; log 14). -/
def execStUnclassified (w : Word) (s : State) : Answer :=
  raiseIrq "ST_UNCLASSIFIED" w s

/-- SPURIOUS_ZERO (R192): the dispatcher reads the word 0, which it can only where no bit is set (log 14). -/
def execSpuriousZero (s : State) : Answer :=
  whenEnabled "SPURIOUS_ZERO" (s.attached && s.win.intStatus == 0) s (fun t => (dispatch t).outcome)

/-- SPURIOUS_ALL_ONES (R192): all ones raised and read by the dispatcher (log 14). -/
def execSpuriousAllOnes (s : State) : Answer :=
  raiseIrq "SPURIOUS_ALL_ONES" (BitVec.allOnes 32) s

end Sys2Proof.Machine
end

