-- ==== Sys2Proof/Machine/Issuer.lean ====
section
/-! DEFINITION. The issuer, platform and environment steps (spec/46_issuer_platform.md). -/

namespace Sys2Proof.Machine

/-- What submit does with an accepted Request (R230): the presence read decides between the NoMedium
path and the first issue. Whether its issuer kept its duties is noted (R236; log 26). -/
def startRequest (r : Request) (s : State) : Res Unit :=
  let q := Request.withRoles r
  (readReg32 .present { s with req := some q, dutyBroken := !Request.dutiesKept q }).bind fun p t =>
  if p &&& bitMask t.params.presentCard = 0 then
    done (scheduleWork .finish (updCmd .primary (fun c => { c with error := .noMedium }) t))
  else if q.sbc.isSome then issue .sbc t
  else issue .primary t

/-- submit(r) (R230). -/
def submitRequest (r : Request) (s : State) : Res Unit :=
  if !s.attached then raise .notAttached s
  else if s.req.isSome then raise .busyViolation s
  else if r.cmd.isNone then raise .configNoCommand s
  else startRequest r s

/-- SUBMIT (R230). -/
def execSubmit (r : Request) (s : State) : Answer :=
  whenLive s (fun t => (submitRequest r t).outcome)

/-- notify() (R232): the oldest completed Request goes to the issuer. -/
def deliver (s : State) : Res Unit :=
  match s.notifyQ with
  | [] => done s
  | r :: rest => done (record (.notifyComplete r) { s with notifyQ := rest })

/-- NOTIFY (R232), enabled while notifyQ is not empty. -/
def execNotify (s : State) : Answer :=
  whenEnabled "NOTIFY" (!s.notifyQ.isEmpty) s (fun t => (deliver t).outcome)

/-- attach() (R234, R281). -/
def attachWindow (s : State) : Res Unit :=
  writeReg32 .intEnable s.params.irqEnableMask { resetEngine s with attached := true }

/-- ATTACH (R234), enabled while not attached. -/
def execAttach (s : State) : Answer :=
  whenEnabled "ATTACH" (!s.attached) s (fun t => (attachWindow t).outcome)

/-- When the platform may detach (R235, R283). -/
def detachable (s : State) : Bool :=
  s.attached && s.req.isNone && !s.finishPend && !s.cardPend && s.timer.isNone && s.notifyQ.isEmpty

/-- detach() (R235). -/
def detachWindow (s : State) : Res Unit :=
  (writeReg32 .intEnable 0 s).bind fun _ t => done { t with attached := false }

/-- DETACH (R235), enabled while Idle with nothing pending. -/
def execDetach (s : State) : Answer :=
  whenEnabled "DETACH" (detachable s) s (fun t => (detachWindow t).outcome)

/-- set_power(mode) (R244, R245). -/
def setPowerMode (mode : PowerMode) (s : State) : Res Unit :=
  writeReg8 .power (powerCtl s.params mode) { s with power := mode }

/-- SET_POWER (R244), enabled while attached. -/
def execSetPower (mode : PowerMode) (s : State) : Answer :=
  whenEnabled "SET_POWER" s.attached s (fun t => (setPowerMode mode t).outcome)

/-- ENV_RAISE (R240). -/
def execEnvRaise (m : Word) (s : State) : Answer :=
  whenLive s (fun t => (done (envRaise m t)).outcome)

/-- ENV_CARD (R241). -/
def execEnvCard (b : Bool) (s : State) : Answer :=
  whenLive s (fun t => (done (envCard b t)).outcome)

end Sys2Proof.Machine
end

