-- ==== Sys2Proof/Machine/Encodings.lean ====
section
/-! DEFINITION. The register-level encodings and field codes of the opcode table as steps
(spec/30_encoding.md R87 to R93, R97, R98, R111). -/

namespace Sys2Proof.Machine

/-- CMDBYTE (R87): the opcode byte written to CMD (log 13). -/
def execCmdbyte (opcode : BitVec 6) (s : State) : Answer :=
  whenLive s (fun t => (writeReg8 .cmd (cmdByte t.params opcode.toNat) t).outcome)

/-- ARGWORD (R88): the argument written to ARG (log 13). -/
def execArgword (arg : Word) (s : State) : Answer :=
  whenLive s (fun t => (writeReg32 .arg (argWord t.params arg) t).outcome)

/-- RSPCTL_NONE (R89, R128): the control byte written to CMD_CTRL, which launches the command (log 13). -/
def execRspctlNone (s : State) : Answer :=
  whenLive s (fun t => (writeReg8 .cmdCtrl (rspCtl t.params .noResponse) t).outcome)

/-- RSPCTL_SHORT (R89, R128): the control byte written to CMD_CTRL, which launches the command (log 13). -/
def execRspctlShort (s : State) : Answer :=
  whenLive s (fun t => (writeReg8 .cmdCtrl (rspCtl t.params .short) t).outcome)

/-- RSPCTL_SHORTBUSY (R89, R128): the control byte written to CMD_CTRL, which launches the command (log 13). -/
def execRspctlShortbusy (s : State) : Answer :=
  whenLive s (fun t => (writeReg8 .cmdCtrl (rspCtl t.params .shortBusy) t).outcome)

/-- RSPCTL_LONG (R89, R128): the control byte written to CMD_CTRL, which launches the command (log 13). -/
def execRspctlLong (s : State) : Answer :=
  whenLive s (fun t => (writeReg8 .cmdCtrl (rspCtl t.params .long) t).outcome)

/-- RSPCTL_R3 (R89, R128): the control byte written to CMD_CTRL, which launches the command (log 13). -/
def execRspctlR3 (s : State) : Answer :=
  whenLive s (fun t => (writeReg8 .cmdCtrl (rspCtl t.params .r3) t).outcome)

/-- DATACTL_READ (R90, R152): the control byte written to DATA_CTRL, which starts one block (log 13). -/
def execDatactlRead (s : State) : Answer :=
  whenLive s (fun t => (writeReg8 .dataCtrl (dataCtl t.params .read) t).outcome)

/-- DATACTL_WRITE (R90, R152): the control byte written to DATA_CTRL, which starts one block (log 13). -/
def execDatactlWrite (s : State) : Answer :=
  whenLive s (fun t => (writeReg8 .dataCtrl (dataCtl t.params .write) t).outcome)

/-- ABORT_CMD (R91, R214): the flag written to ABORT and polled (log 13). -/
def execAbortCmd (s : State) : Answer :=
  whenLive s (fun t => (abortSequence .cmd t).outcome)

/-- ABORT_DATA (R91, R214): the flag written to ABORT and polled (log 13). -/
def execAbortData (s : State) : Answer :=
  whenLive s (fun t => (abortSequence .data t).outcome)

/-- POWER_OFF (R92, R244): the supply rail set, enabled as SET_POWER is (log 13). -/
def execPowerOff (s : State) : Answer :=
  whenEnabled "POWER_OFF" s.attached s (fun t => (setPowerMode .off t).outcome)

/-- POWER_UP (R92, R244): the supply rail set, enabled as SET_POWER is (log 13). -/
def execPowerUp (s : State) : Answer :=
  whenEnabled "POWER_UP" s.attached s (fun t => (setPowerMode .up t).outcome)

/-- POWER_ON (R92, R244): the supply rail set, enabled as SET_POWER is (log 13). -/
def execPowerOn (s : State) : Answer :=
  whenEnabled "POWER_ON" s.attached s (fun t => (setPowerMode .on t).outcome)

/-- BLKSZ16 (R93): the block size written to BLKSIZE (log 13). DESIGN CHOICE, log 13: R93 calls the
sizes 1 to 512 legal and gives 0 and 513 to 1023 no write; the word of such a size is written too. -/
def execBlksz16 (blksz : BitVec 10) (s : State) : Answer :=
  whenLive s (fun t => (writeReg16 .blksize (blkSz16 blksz.toNat) t).outcome)

/-- SHAPE_NONE (R97): the line of issue that takes the code (R125; log 15). -/
def execShapeNone (s : State) : Answer :=
  whenLive s (fun t => (launch (Shape.code .noResponse) t).outcome)

/-- SHAPE_SHORT (R97): the line of issue that takes the code (R125; log 15). -/
def execShapeShort (s : State) : Answer :=
  whenLive s (fun t => (launch (Shape.code .short) t).outcome)

/-- SHAPE_SHORTBUSY (R97): the line of issue that takes the code (R125; log 15). -/
def execShapeShortbusy (s : State) : Answer :=
  whenLive s (fun t => (launch (Shape.code .shortBusy) t).outcome)

/-- SHAPE_LONG (R97): the line of issue that takes the code (R125; log 15). -/
def execShapeLong (s : State) : Answer :=
  whenLive s (fun t => (launch (Shape.code .long) t).outcome)

/-- SHAPE_R3 (R97): the line of issue that takes the code (R125; log 15). -/
def execShapeR3 (s : State) : Answer :=
  whenLive s (fun t => (launch (Shape.code .r3) t).outcome)

/-- SHAPE_INVALID (R132): the line of issue that takes the code raises ConfigShape (log 15). -/
def execShapeInvalid (code : BitVec 3) (s : State) : Answer :=
  whenLive s (fun t => (launch code t).outcome)

/-- DIR_READ (R98): the line of trigger_block that takes the code (R152; log 15). -/
def execDirRead (s : State) : Answer :=
  whenLive s (fun t => (writeReg8 .dataCtrl (dataCtl t.params .read) t).outcome)

/-- DIR_WRITE (R98): the line of trigger_block that takes the code (R152; log 15). -/
def execDirWrite (s : State) : Answer :=
  whenLive s (fun t => (writeReg8 .dataCtrl (dataCtl t.params .write) t).outcome)

/-- The line of issue that takes a role code into the current-command slot (R125, R126; log 15). -/
def takeSlot (r : Role) (s : State) : Res Unit :=
  match cmdOf s r with
  | none => .stuck (.undefinedOperand "ROLE")
  | some _ => done { s with curCmd := some r }

/-- ROLE_SBC (R98): the slot takes the code (R126; log 15). -/
def execRoleSbc (s : State) : Answer :=
  whenLive s (fun t => (takeSlot .sbc t).outcome)

/-- ROLE_PRIMARY (R98): the slot takes the code (R126; log 15). -/
def execRolePrimary (s : State) : Answer :=
  whenLive s (fun t => (takeSlot .primary t).outcome)

/-- ROLE_STOP (R98): the slot takes the code (R126; log 15). -/
def execRoleStop (s : State) : Answer :=
  whenLive s (fun t => (takeSlot .stop t).outcome)

/-- OP_INVALID (R111): a reserved operation code, which the decoder refuses (log 16). -/
def execOpInvalid (code : Byte) (s : State) : Answer :=
  whenLive s (fun _ => .refused (.invalidOp code))

end Sys2Proof.Machine
end

