-- ==== Sys2Proof/Machine/RegisterInterface.lean ====
section
/-! DEFINITION. The Register Interface steps (spec/40_register_interface.md). -/

namespace Sys2Proof.Machine

/-- READ8 (R115). The value goes to the trace. -/
def execRead8 (off : Word) (s : State) : Answer :=
  whenLive s (fun t => ((read8 off.toNat t).bind fun _ u => done u).outcome)

/-- READ32 (R116). The value goes to the trace. -/
def execRead32 (off : Word) (s : State) : Answer :=
  whenLive s (fun t => ((read32 off.toNat t).bind fun _ u => done u).outcome)

/-- WRITE8 (R117). -/
def execWrite8 (off : Word) (v : Byte) (s : State) : Answer :=
  whenLive s (fun t => (write8 off.toNat v t).outcome)

/-- WRITE32 (R118). -/
def execWrite32 (off : Word) (v : Word) (s : State) : Answer :=
  whenLive s (fun t => (write32 off.toNat v t).outcome)

/-- WRITE16 (R119). -/
def execWrite16 (off : Word) (v : Half) (s : State) : Answer :=
  whenLive s (fun t => (write16 off.toNat v t).outcome)

/-- LOG (R123). -/
def execLog (k : LogKind) (s : State) : Answer :=
  whenLive s (fun t => (done (logEvent k t)).outcome)

end Sys2Proof.Machine
end

