-- ==== Sys2Proof/Machine/Transfer.lean ====
section
/-! DEFINITION. The transfer port steps (spec/43_transfer_port.md). -/

namespace Sys2Proof.Machine

/-- PIO (R175). -/
def execPio (s : State) : Answer :=
  whenLive s (fun t => (transferPio t).outcome)

/-- PIO_READ_BLOCK (R177): one block of the active Data object, n = d.blksz. -/
def execPioReadBlock (s : State) : Answer :=
  whenLive s (fun t =>
    match dataOf t with
    | none => .refused (.undefinedOperand "PIO_READ_BLOCK")
    | some d => (readBlock d.sg d.blksz t).outcome)

/-- PIO_WRITE_BLOCK (R178): one block of the active Data object, n = d.blksz. -/
def execPioWriteBlock (s : State) : Answer :=
  whenLive s (fun t =>
    match dataOf t with
    | none => .refused (.undefinedOperand "PIO_WRITE_BLOCK")
    | some d => (writeBlock d.sg d.blksz t).outcome)

end Sys2Proof.Machine
end

