-- ==== Sys2Proof/Machine/Dispatch.lean ====
section
/-! DEFINITION. One arm per step: each calls its own meaning. -/

namespace Sys2Proof.Machine

def exec (i : Instr) (s : State) : Host.Outcome State Fault Refusal :=
  match i with
  | .attach => Sys2Proof.Machine.execAttach s
  | .detach => Sys2Proof.Machine.execDetach s
  | .submit r => Sys2Proof.Machine.execSubmit r s
  | .irq => Sys2Proof.Machine.execIrq s
  | .wdog => Sys2Proof.Machine.execWdog s
  | .workFinish => Sys2Proof.Machine.execWorkFinish s
  | .workCard => Sys2Proof.Machine.execWorkCard s
  | .notify => Sys2Proof.Machine.execNotify s
  | .setPower mode => Sys2Proof.Machine.execSetPower mode s
  | .envRaise m => Sys2Proof.Machine.execEnvRaise m s
  | .envCard b => Sys2Proof.Machine.execEnvCard b s
  | .issue r => Sys2Proof.Machine.execIssue r s
  | .arm n => Sys2Proof.Machine.execArm n s
  | .cancel => Sys2Proof.Machine.execCancel s
  | .cmdIrq mask => Sys2Proof.Machine.execCmdIrq mask s
  | .finishCmd => Sys2Proof.Machine.execFinishCmd s
  | .prepare => Sys2Proof.Machine.execPrepare s
  | .triggerBlock size dir => Sys2Proof.Machine.execTriggerBlock size dir s
  | .dataIrq mask => Sys2Proof.Machine.execDataIrq mask s
  | .pio => Sys2Proof.Machine.execPio s
  | .pioReadBlock => Sys2Proof.Machine.execPioReadBlock s
  | .pioWriteBlock => Sys2Proof.Machine.execPioWriteBlock s
  | .finishData e => Sys2Proof.Machine.execFinishData e s
  | .abortSeq k => Sys2Proof.Machine.execAbortSeq k s
  | .schedule w => Sys2Proof.Machine.execSchedule w s
  | .log k => Sys2Proof.Machine.execLog k s
  | .read8 off => Sys2Proof.Machine.execRead8 off s
  | .read32 off => Sys2Proof.Machine.execRead32 off s
  | .write8 off v => Sys2Proof.Machine.execWrite8 off v s
  | .write32 off v => Sys2Proof.Machine.execWrite32 off v s
  | .write16 off v => Sys2Proof.Machine.execWrite16 off v s
  | .cmdbyte opcode => Sys2Proof.Machine.execCmdbyte opcode s
  | .argword arg => Sys2Proof.Machine.execArgword arg s
  | .rspctlNone => Sys2Proof.Machine.execRspctlNone s
  | .rspctlShort => Sys2Proof.Machine.execRspctlShort s
  | .rspctlShortbusy => Sys2Proof.Machine.execRspctlShortbusy s
  | .rspctlLong => Sys2Proof.Machine.execRspctlLong s
  | .rspctlR3 => Sys2Proof.Machine.execRspctlR3 s
  | .datactlRead => Sys2Proof.Machine.execDatactlRead s
  | .datactlWrite => Sys2Proof.Machine.execDatactlWrite s
  | .abortCmd => Sys2Proof.Machine.execAbortCmd s
  | .abortData => Sys2Proof.Machine.execAbortData s
  | .powerOff => Sys2Proof.Machine.execPowerOff s
  | .powerUp => Sys2Proof.Machine.execPowerUp s
  | .powerOn => Sys2Proof.Machine.execPowerOn s
  | .blksz16 blksz => Sys2Proof.Machine.execBlksz16 blksz s
  | .stCmdComplete w => Sys2Proof.Machine.execStCmdComplete w s
  | .stXferComplete w => Sys2Proof.Machine.execStXferComplete w s
  | .stSpaceAvail w => Sys2Proof.Machine.execStSpaceAvail w s
  | .stDataAvail w => Sys2Proof.Machine.execStDataAvail w s
  | .stCardInsert w => Sys2Proof.Machine.execStCardInsert w s
  | .stCardRemove w => Sys2Proof.Machine.execStCardRemove w s
  | .stCardInt w => Sys2Proof.Machine.execStCardInt w s
  | .stCmdTimeout w => Sys2Proof.Machine.execStCmdTimeout w s
  | .stCmdCrc w => Sys2Proof.Machine.execStCmdCrc w s
  | .stCmdEndBit w => Sys2Proof.Machine.execStCmdEndBit w s
  | .stCmdIndex w => Sys2Proof.Machine.execStCmdIndex w s
  | .stDataTimeout w => Sys2Proof.Machine.execStDataTimeout w s
  | .stDataCrc w => Sys2Proof.Machine.execStDataCrc w s
  | .stDataEndBit w => Sys2Proof.Machine.execStDataEndBit w s
  | .stUnclassified w => Sys2Proof.Machine.execStUnclassified w s
  | .spuriousZero => Sys2Proof.Machine.execSpuriousZero s
  | .spuriousAllOnes => Sys2Proof.Machine.execSpuriousAllOnes s
  | .shapeNone => Sys2Proof.Machine.execShapeNone s
  | .shapeShort => Sys2Proof.Machine.execShapeShort s
  | .shapeShortbusy => Sys2Proof.Machine.execShapeShortbusy s
  | .shapeLong => Sys2Proof.Machine.execShapeLong s
  | .shapeR3 => Sys2Proof.Machine.execShapeR3 s
  | .shapeInvalid code => Sys2Proof.Machine.execShapeInvalid code s
  | .dirRead => Sys2Proof.Machine.execDirRead s
  | .dirWrite => Sys2Proof.Machine.execDirWrite s
  | .roleSbc => Sys2Proof.Machine.execRoleSbc s
  | .rolePrimary => Sys2Proof.Machine.execRolePrimary s
  | .roleStop => Sys2Proof.Machine.execRoleStop s
  | .opInvalid code => Sys2Proof.Machine.execOpInvalid code s

end Sys2Proof.Machine
end

