-- ==== Sys2Proof/Machine/Agenda.lean ====
section
/-! DEFINITION. Which step runs next: an agenda entry (R107), or a free choice of some enabled
agent's step where the agenda is empty (R79, R264, R298; log 10, log 11). -/

namespace Sys2Proof.Machine

/-- The step of an agenda entry (R107, R111). -/
def runEntry (e : Entry) (s : State) : Answer :=
  match decode e with
  | .ok i => exec i s
  | .error d => whenLive s (fun _ => .refused (.undecodable d))

/-- A step some agent offers: taken if it is a top-level step that is enabled, else the block stays
as it is between steps (R298; log 11). -/
def runOffer (i : Instr) (s : State) : Answer :=
  if i.topLevel then
    match exec i s with
    | .refused (.notEnabled _) => .next s
    | o => o
  else whenLive s (fun t => .next t)

/-- The state with an entry at the head of its agenda. -/
def placeEntry (e : Entry) (s : State) : State := { s with agenda := e :: s.agenda }

end Sys2Proof.Machine
end

