-- ==== Sys2Proof/Machine/Step.lean ====
section
/-! DEFINITION. One step of the machine. -/

namespace Sys2Proof.Machine

/-- One step: the next entry of the agenda, taken off it, or what some agent offers (R79, R264;
log 10, log 11). -/
def step (s : State) : Host.Outcome State Fault Refusal :=
  match s.agenda with
  | e :: rest => runEntry e { s with agenda := rest }
  | [] => runOffer (Config.freeStep s.turns) { s with turns := s.turns + 1 }

/-- The state with a table word next in the agenda, its operand bytes zero (log 10, log 21). -/
def State.withFetchWord (s : State) (nbits w : Nat) : State :=
  match tableEntry nbits w with
  | some e => placeEntry e s
  | none => s

end Sys2Proof.Machine
end

