-- ==== Sys2Proof/Safety.lean ====
section
/-! DEFINITION. What a safe state and a safe step are, in the terms the statements use. -/

namespace Sys2Proof.Machine

/-! ## Memory -/

/-- The memory is in its canonical form and lies inside the issuer address space (R63). -/
def memoryOk (s : State) : Bool :=
  Memory.wf s.mem && s.mem.all (fun c => decide (c.1 < 2 ^ s.params.memAddrWidth))

/-! ## Engine invariant

The clauses are what the rules of spec/10_state.md R21, R36 to R41, spec/45 R228 and spec/70 R282 and
R299 say of the engine between top-level steps. -/

/-- The slot names a Command the active Request has, and one of a known shape (R36, R132). -/
def slotOk (s : State) : Bool :=
  match s.curCmd with
  | none => true
  | some r =>
    match cmdOf s r with
    | some c => (Shape.ofCode c.shapeCode).isSome
    | none => false

/-- Bytes of a scatter list from the cursor on. -/
def sgLeft (sg : List SgEntry) (c : Cursor) : Nat := sgTotal (sg.drop c.sgIdx) - c.sgOff

/-- The cursor stands inside the scatter list (R39). -/
def cursorIn (sg : List SgEntry) (c : Cursor) : Bool :=
  match sg[c.sgIdx]? with
  | some e => decide (c.sgOff ≤ e.len)
  | none => decide (c.sgIdx = sg.length) && decide (c.sgOff = 0)

/-- An attached Data phase is one prepare accepted, and the list still covers its blocks (R37, R151,
R153, R183). -/
def dataPhaseOk (s : State) : Bool :=
  !s.curData ||
    match dataOf s with
    | none => false
    | some d =>
      sizesOk d && sgInRange s.params d && decide (s.cursor.blocksLeft ≤ d.blocks)
        && cursorIn d.sg s.cursor && decide (d.blksz * s.cursor.blocksLeft ≤ sgLeft d.sg s.cursor)

/-- A data-early mark stands only beside a Data phase and an outstanding command (R38, R163). -/
def earlyOk (s : State) : Bool := !s.dataEarly || (s.curData && s.curCmd.isSome)

/-- With no Request the engine holds nothing (R206, R280). -/
def idleOk (s : State) : Bool :=
  s.req.isSome || (s.curCmd.isNone && !s.curData && !s.finishPend && s.timer.isNone)

/-- While detached nothing is pending (R235, R282). -/
def detachedOk (s : State) : Bool :=
  s.attached || (s.req.isNone && !s.finishPend && !s.cardPend && s.timer.isNone && s.notifyQ.isEmpty)

/-- A Command, where present, has the role of the field that holds it (R98). -/
def roleOk (r : Role) (c : Option Command) : Bool :=
  match c with
  | some x => x.role == r
  | none => true

/-- An active Request has a primary command, and each Command its role (R27, R230). -/
def requestOk (s : State) : Bool :=
  match s.req with
  | none => true
  | some q => q.cmd.isSome && roleOk .primary q.cmd && roleOk .sbc q.sbc
      && roleOk .stop (Request.command q .stop)

/-- An active Request whose completion is not scheduled has a command outstanding or a Data phase
attached, and the watchdog armed (R21, R299). -/
def progressOk (s : State) : Bool :=
  s.req.isNone || s.finishPend || ((s.curCmd.isSome || s.curData) && s.timer.isSome)

/-- The engine between top-level steps, while no fault was raised. -/
def engineOk (s : State) : Bool :=
  slotOk s && dataPhaseOk s && earlyOk s && decide (s.cursor.accOff = 0) && idleOk s
    && detachedOk s && requestOk s && progressOk s

/-- The invariant of top-level steps. A fault ends every agent, so nothing is asked after one (R253). -/
def invOk (s : State) : Bool := paramsOk s.params && memoryOk s && (s.fault.isSome || engineOk s)

/-! ## Safe steps -/

/-- An answer that is neither a refusal for a missing object nor a state carrying a fault that the
spec calls unreachable: WindowAccess, since no rule makes such an access (R62). -/
def safeAnswer (o : Answer) : Bool :=
  match o with
  | .next t => t.fault != some .windowAccess
  | .fault _ => true
  | .refused (.undefinedOperand _) => false
  | .refused _ => true

/-! ## Draws and events -/

/-- Attached, no fault raised, legal parameters: what a register access of the rules needs. -/
def ready (s : State) : Bool := s.fault.isNone && s.attached && paramsOk s.params

/-- The value of the k-th draw from a state on (R121). -/
def drawAt (s : State) (k : Nat) : Word :=
  match s.answers[k]? with
  | some v => v
  | none => Config.freeWord (s.draws + (k - s.answers.length))

/-- The state after n draws. -/
def afterDraws (n : Nat) (s : State) : State :=
  { s with answers := s.answers.drop n, draws := s.draws + (n - s.answers.length) }

/-- What a read of PRESENT shows: the word drawn (R116), or its card bit as the register holds it (R51,
R241), by the parameter presentRead (log 8). -/
def presentShown (s : State) : Word :=
  let card := bitMask s.params.presentCard
  if s.params.presentRead = .drawn then drawAt s 0
  else (drawAt s 0 &&& ~~~card) ||| (s.win.present &&& card)

/-- Is a register event one the table of R29 lists: a register at that offset, of that width, in that
direction (R62, R124)? -/
def legalEvent (p : Params) : Event → Bool
  | .r8 off _ => allRegs.any (fun r => regOff p r == off && regBytes r == 1 && regReadable r)
  | .r32 off _ => allRegs.any (fun r => regOff p r == off && regBytes r == 4 && regReadable r)
  | .w8 off _ => allRegs.any (fun r => regOff p r == off && regBytes r == 1 && regWritable r)
  | .w16 off _ => allRegs.any (fun r => regOff p r == off && regBytes r == 2 && regWritable r)
  | .w32 off _ => allRegs.any (fun r => regOff p r == off && regBytes r == 4 && regWritable r)
  | _ => true

/-- Is an access one the table of R29 lists, while attached (R62)? -/
def legalAccess (s : State) (off bytes : Nat) (allowed : Reg → Bool) : Bool :=
  s.attached && decide (off + bytes ≤ s.params.windowSize) && decide (off % bytes = 0)
    && allRegs.any (fun r => regOff s.params r == off && regBytes r == bytes && allowed r)

/-- One step after another, the second only where the first raised no fault. -/
def thenStep (a : Answer) (k : State → Answer) : Answer :=
  match a with
  | .next t => if t.fault.isSome then .next t else k t
  | o => o

/-- One category acknowledged by its own write of exactly its bits, then handled; no write where no
bit is set (R191). -/
def ackThen (bits : Word) (k : State → Answer) (s : State) : Answer :=
  if bits = 0 then .next s
  else k { s with
    win := { s.win with intStatus := s.win.intStatus &&& ~~~bits }
    trace := s.trace ++ [.w32 s.params.offIntStatus bits] }

/-! ## Responses (R141) -/

/-- How many response words a shape has. -/
def responseWords : Shape → Nat
  | .noResponse => 0
  | .long => 4
  | _ => 1

/-- The four response registers after a response of this shape was read. -/
def responseWin (sh : Shape) (v : Nat → Word) (w : Window) : Window :=
  match sh with
  | .noResponse => w
  | .long => { w with resp0 := v 0, resp1 := v 1, resp2 := v 2, resp3 := v 3 }
  | _ => { w with resp0 := v 0 }

/-- The response words stored in the Command. -/
def responseStored (p : Params) (sh : Shape) (v : Nat → Word) (old : Resp) : Resp :=
  match sh with
  | .noResponse => old
  | .long =>
    Resp.ofWords (longRespFix p ⟨v 0, v 1, v 2, v 3⟩)
  | _ => { old with w0 := some (v 0) }

/-- The reads made. -/
def responseReads (p : Params) (sh : Shape) (v : Nat → Word) : List Event :=
  match sh with
  | .noResponse => []
  | .long =>
    [.r32 p.offResp0 (v 0), .r32 p.offResp1 (v 1), .r32 p.offResp2 (v 2), .r32 p.offResp3 (v 3)]
  | _ => [.r32 p.offResp0 (v 0)]

/-- The state once the response of the command of role r is stored, its error cleared and the slot
emptied (R140, R141, R146). -/
def captured (r : Role) (sh : Shape) (s : State) : State :=
  let v := drawAt s
  { afterDraws (responseWords sh) s with
    req := s.req.map (fun q => Request.mapCommand q r (fun c =>
      { c with resp := responseStored s.params sh v c.resp, error := .ok }))
    curCmd := none
    win := responseWin sh v s.win
    trace := s.trace ++ responseReads s.params sh v }

/-! ## Blocks (R177, R178, R187) -/

/-- The cursor after n more bytes. -/
def cursorAfter (sg : List SgEntry) : Nat → Cursor → Cursor
  | 0, c => c
  | n + 1, c =>
    let c' := seek sg c
    cursorAfter sg n { c' with sgOff := c'.sgOff + 1 }

/-- The scatter list still reaches n bytes from the cursor. -/
def reaches (s : State) (d : Data) : Bool :=
  decide ((blockAddrs s.params d.sg d.blksz s.cursor).length = d.blksz)

/-- Byte j of the block a read moves: lane j mod 4 of data-port word j div 4 (R68, R187). -/
def portByte (s : State) (j : Nat) : Byte := byteOf (drawAt s (j / 4)) (j % 4)

/-- Word k of the block a write moves: bytes 4k to 4k+3, zero past the end (R68, R178). -/
def portWord (bytes : List Byte) (k : Nat) : Word :=
  wordOf (bytes.getD (4 * k) 0) (bytes.getD (4 * k + 1) 0) (bytes.getD (4 * k + 2) 0)
    (bytes.getD (4 * k + 3) 0)

/-- Memory after the bytes of a block are stored in order. -/
def storeAll (m : Memory) (cells : List (Nat × Byte)) : Memory :=
  cells.foldl (fun m c => Memory.write m c.1 c.2) m

/-- The events of a read block of the bytes at these addresses. -/
def readEvents (s : State) (addrs : List Nat) : List Event :=
  (addrs.zipIdx.map (fun x =>
    (if x.2 % 4 = 0 then [Event.r32 s.params.offData (drawAt s (x.2 / 4))] else [])
      ++ [Event.mw x.1 (portByte s x.2)])).flatten

/-- The events of a written block of the bytes at these addresses: a word as soon as it is full, the
partial one at the end. -/
def writeEvents (s : State) (addrs : List Nat) : List Event :=
  let bytes := addrs.map (Memory.read s.mem)
  (addrs.zipIdx.map (fun x =>
    [Event.mr x.1 (Memory.read s.mem x.1)]
      ++ (if x.2 % 4 = 3 then [Event.w32 s.params.offData (portWord bytes (x.2 / 4))] else []))).flatten
    ++ (if addrs.length % 4 = 0 then []
      else [Event.w32 s.params.offData (portWord bytes (addrs.length / 4))])

/-- The words written to the data port, in order. -/
def dataWords (p : Params) (es : List Event) : List Word :=
  es.filterMap (fun e =>
    match e with
    | .w32 off v => if off = p.offData then some v else none
    | _ => none)

/-! ## Stores to issuer memory -/

/-- The addresses transfer_pio stores to (R175, R177). -/
def pioStores (s : State) : List Nat :=
  if s.cursor.blocksLeft = 0 then []
  else match dataOf s with
    | some d =>
      match d.dir with
      | .read => blockAddrs s.params d.sg d.blksz s.cursor
      | .write => []
    | none => []

/-- The addresses on_data_interrupt stores to (R156). -/
def dataIrqStores (mask : Word) (s : State) : List Nat :=
  if s.curData && dataError s.params mask == .ok && movesBlock s mask then pioStores s
  else []

/-- The addresses a dispatch stores to: those of its data step, in the state the card and command
steps leave (R190, R195). -/
def irqStores (s : State) : List Nat :=
  let st := s.win.intStatus
  if spuriousWord st then []
  else match dispatchFront st (record (.r32 s.params.offIntStatus st) s) with
    | .ok _ t =>
      dataIrqStores (dataPart t.params st)
        { t with win := { t.win with intStatus := t.win.intStatus &&& ~~~dataPart t.params st } }
    | _ => []

/-- The word a status-word step raises (R110; log 14). -/
def raisedWord (p : Params) : Instr → Option Word
  | .stCmdComplete w => some (w ||| bitMask p.stCmdComplete)
  | .stXferComplete w => some (w ||| bitMask p.stXferComplete)
  | .stSpaceAvail w => some (w ||| bitMask p.stSpaceAvail)
  | .stDataAvail w => some (w ||| bitMask p.stDataAvail)
  | .stCardInsert w => some (w ||| bitMask p.stCardInsert)
  | .stCardRemove w => some (w ||| bitMask p.stCardRemove)
  | .stCardInt w => some (w ||| bitMask p.stCardInt)
  | .stCmdTimeout w => some (w ||| bitMask p.stCmdTimeout)
  | .stCmdCrc w => some (w ||| bitMask p.stCmdCrc)
  | .stCmdEndBit w => some (w ||| bitMask p.stCmdEndBit)
  | .stCmdIndex w => some (w ||| bitMask p.stCmdIndex)
  | .stDataTimeout w => some (w ||| bitMask p.stDataTimeout)
  | .stDataCrc w => some (w ||| bitMask p.stDataCrc)
  | .stDataEndBit w => some (w ||| bitMask p.stDataEndBit)
  | .stUnclassified w => some w
  | .spuriousAllOnes => some (BitVec.allOnes 32)
  | _ => none

/-- A status word's row has one bit, and the word has no other (R94). -/
def onlyBit (n : Nat) (w : Word) : Prop := w ||| bitMask n = bitMask n

/-- The addresses a step stores to. -/
def storedAt (i : Instr) (s : State) : List Nat :=
  match i with
  | .pioReadBlock =>
    match dataOf s with
    | some d => blockAddrs s.params d.sg d.blksz s.cursor
    | none => []
  | .pio => pioStores s
  | .dataIrq mask => dataIrqStores mask s
  | .irq => irqStores s
  | .spuriousZero => irqStores s
  | i =>
    match raisedWord s.params i with
    | some w => irqStores (envRaise w s)
    | none => []

/-! ## Which steps run when -/

/-- When a step's agent is enabled, while no fault was raised (R79, R235, R282). -/
def enabled (i : Instr) (s : State) : Bool :=
  match i with
  | .attach => !s.attached
  | .detach => s.attached && s.req.isNone && !s.finishPend && !s.cardPend && s.timer.isNone
      && s.notifyQ.isEmpty
  | .irq => s.attached
  | .wdog => s.timer.isSome
  | .workFinish => s.finishPend
  | .workCard => s.cardPend
  | .notify => !s.notifyQ.isEmpty
  | .setPower _ | .powerOff | .powerUp | .powerOn => s.attached
  | .spuriousZero => s.attached && s.win.intStatus == 0
  | i => (raisedWord s.params i).isNone || s.attached

/-- The steps that are whole: the top-level ones, the status words raised and dispatched, the supply
settings. The rest run in the spec only inside another step (R99, R100). -/
def wholeStep (i : Instr) : Bool :=
  i.topLevel || (raisedWord Params.reference i).isSome
    || (match i with
      | .spuriousZero | .powerOff | .powerUp | .powerOn => true
      | _ => false)

/-- Every entry of the agenda that names a step names a whole one. -/
def wholeAgenda (s : State) : Bool :=
  s.agenda.all (fun e =>
    match decode e with
    | .ok i => wholeStep i
    | .error _ => true)

/-! ## Phases (R226) -/

/-- The moves of one step between phases (R226), and staying. ResponseReceived is never held. -/
def phaseMove : Phase → Phase → Bool
  | .idle, .idle | .idle, .commandIssued | .idle, .completing => true
  | .commandIssued, .commandIssued | .commandIssued, .dataActive | .commandIssued, .dataComplete
  | .commandIssued, .completing => true
  | .dataActive, .dataActive | .dataActive, .commandIssued | .dataActive, .completing => true
  | .dataComplete, .dataComplete | .dataComplete, .commandIssued | .dataComplete, .completing => true
  | .completing, .completing | .completing, .idle => true
  | _, _ => false

/-! ## Runs and fairness (R19, R298) -/

/-- One step of the transition system (R19, R79): the step i some agent offers, taken where it is a
top-level step that is enabled, else nothing. What the environment answers to its reads is open (R57),
and so is what the model's own schedule held before. -/
def agentStep (i : Instr) (s t : State) : Prop :=
  ∃ (answers : List Word) (agenda : List Entry) (turns : Nat),
    runOffer i { s with answers := answers, agenda := agenda, turns := turns } = .next t

/-- An infinite run: at turn n the step `offers n` is offered. No fault is raised in one, since a
faulted state has no next state (R253). -/
def isRun (states : Nat → State) (offers : Nat → Instr) : Prop :=
  ∀ n, agentStep (offers n) (states n) (states (n + 1))

/-- Where weak fairness owes a step its turn (R298): IRQ while the line is asserted, WDOG while the
timer is armed, the deferred work while its flag is set, NOTIFY while the queue is not empty. The other
steps have no fairness. -/
def owed (i : Instr) (s : State) : Bool :=
  match i with
  | .irq => irqLine s
  | .wdog => s.timer.isSome
  | .workFinish => s.finishPend
  | .workCard => s.cardPend
  | .notify => !s.notifyQ.isEmpty
  | _ => false

/-- Weak fairness (R298): a step that stays owed from some turn on is taken at a later one; that is,
from every turn on there is one at which it is taken or not owed. -/
def fairRun (states : Nat → State) (offers : Nat → Instr) : Prop :=
  ∀ (i : Instr) (n : Nat), ∃ m, n ≤ m ∧ (owed i (states m) = true → offers m = i)

/-- The Requests notified from a state to a later one, in order (R232). -/
def deliveries (s t : State) : List Request :=
  (t.trace.drop s.trace.length).filterMap (fun e =>
    match e with
    | .notifyComplete q => some q
    | _ => none)

/-! ## The issuer's fields (R237) -/

/-- A Command with the engine's fields blanked. -/
def Command.issuerPart (c : Command) : Command := { c with resp := {}, error := .ok }

/-- A Request with the engine's fields blanked. -/
def Request.issuerPart (q : Request) : Request where
  cmd := q.cmd.map Command.issuerPart
  sbc := q.sbc.map Command.issuerPart
  data := q.data.map (fun d =>
    { d with bytesXfered := 0, error := .ok, stop := d.stop.map Command.issuerPart })

/-! ## Frames -/

/-- One piece of state. -/
inductive Field where
  | attached
  | req
  | curCmd
  | curData
  | dataEarly
  | cursor
  | timer
  | finishPend
  | cardPend
  | notifyQ
  | power
  | fault
  | trace
  | reg (r : Reg)
  | mem
  | params
  | answers
  | draws
  | agenda
  | turns
  | dutyBroken
  | breaches
  deriving DecidableEq, Repr

/-- The value a register of the window holds. -/
def regValue (w : Window) : Reg → Nat
  | .intStatus => w.intStatus.toNat
  | .intEnable => w.intEnable.toNat
  | .cmd => w.cmd.toNat
  | .cmdCtrl => w.cmdCtrl.toNat
  | .dataCtrl => w.dataCtrl.toNat
  | .abort => w.abort.toNat
  | .arg => w.arg.toNat
  | .blksize => w.blksize.toNat
  | .present => w.present.toNat
  | .power => w.power.toNat
  | .resp0 => w.resp0.toNat
  | .resp1 => w.resp1.toNat
  | .resp2 => w.resp2.toNat
  | .resp3 => w.resp3.toNat
  | .data => w.data.toNat

/-- Two states agree on one piece of state; memory byte by byte. -/
def agree (f : Field) (s t : State) : Prop :=
  match f with
  | .attached => t.attached = s.attached
  | .req => t.req = s.req
  | .curCmd => t.curCmd = s.curCmd
  | .curData => t.curData = s.curData
  | .dataEarly => t.dataEarly = s.dataEarly
  | .cursor => t.cursor = s.cursor
  | .timer => t.timer = s.timer
  | .finishPend => t.finishPend = s.finishPend
  | .cardPend => t.cardPend = s.cardPend
  | .notifyQ => t.notifyQ = s.notifyQ
  | .power => t.power = s.power
  | .fault => t.fault = s.fault
  | .trace => t.trace = s.trace
  | .reg r => regValue t.win r = regValue s.win r
  | .mem => ∀ a, Memory.read t.mem a = Memory.read s.mem a
  | .params => t.params = s.params
  | .answers => t.answers = s.answers
  | .draws => t.draws = s.draws
  | .agenda => t.agenda = s.agenda
  | .turns => t.turns = s.turns
  | .dutyBroken => t.dutyBroken = s.dutyBroken
  | .breaches => t.breaches = s.breaches

/-- Where a read of a register shows: a draw and the register it fills (log 9); INT_STATUS nowhere. -/
def readWrites (r : Reg) : List Field :=
  if r = .intStatus then [] else [.reg r, .answers, .draws]

/-- What an abort sequence writes beside the trace (R214). -/
def abortWrites : List Field := .fault :: .trace :: readWrites .abort

/-- What trigger_block writes (R152). -/
def triggerWrites : List Field := [.fault, .trace, .reg .blksize, .reg .dataCtrl]

/-- What prepare writes (R150). -/
def prepareWrites : List Field := triggerWrites ++ [.req, .cursor, .dataEarly, .curData]

/-- What issue writes (R125). -/
def issueWrites : List Field :=
  prepareWrites ++ [.curCmd, .timer, .reg .cmd, .reg .arg, .reg .cmdCtrl]

/-- What finish writes (R166). -/
def finishWrites : List Field := issueWrites ++ abortWrites ++ [.finishPend]

/-- What finish_command writes (R140). -/
def finishCmdWrites : List Field :=
  finishWrites ++ readWrites .resp0 ++ readWrites .resp1 ++ readWrites .resp2 ++ readWrites .resp3

/-- What moving a block writes (R175 to R178). -/
def pioWrites : List Field := [.fault, .trace, .cursor, .mem] ++ readWrites .data

/-- What the data interrupt writes (R156). -/
def dataIrqWrites : List Field := finishCmdWrites ++ pioWrites

/-- What a dispatch writes (R190). -/
def dispatchWrites : List Field := dataIrqWrites ++ [.reg .intStatus, .cardPend]

/-- The register an accessor's offset names. -/
def regField (p : Params) (off : Word) : List Field :=
  match regAt p off.toNat with
  | some r => [.reg r]
  | none => []

/-- What the read accessors write. -/
def readField (p : Params) (off : Word) : List Field :=
  match regAt p off.toNat with
  | some r => readWrites r
  | none => []

/-- The pieces of state a step may write: its destinations, and what the rules it calls also write. -/
def mayWrite (p : Params) : Instr → List Field
  | .attach => [.fault, .trace, .attached, .req, .curCmd, .curData, .dataEarly, .cursor, .timer,
      .finishPend, .cardPend, .notifyQ, .dutyBroken, .reg .intEnable]
  | .detach => [.fault, .trace, .attached, .reg .intEnable]
  | .submit _ => issueWrites ++ readWrites .present ++ [.finishPend, .dutyBroken]
  | .irq => dispatchWrites
  | .wdog => finishWrites
  | .workFinish => abortWrites ++ [.finishPend, .timer, .req, .curCmd, .curData, .dataEarly, .cursor,
      .notifyQ, .dutyBroken, .breaches]
  | .workCard => [.trace, .cardPend]
  | .notify => [.trace, .notifyQ]
  | .setPower _ | .powerOff | .powerUp | .powerOn => [.fault, .trace, .power, .reg .power]
  | .envRaise _ => [.reg .intStatus]
  | .envCard _ => [.reg .present]
  | .issue _ => issueWrites
  | .arm _ => [.trace, .timer]
  | .cancel => [.trace, .timer]
  | .cmdIrq _ => finishCmdWrites
  | .finishCmd => finishCmdWrites
  | .prepare => prepareWrites
  | .triggerBlock _ _ => triggerWrites
  | .dataIrq _ => dataIrqWrites
  | .pio => pioWrites
  | .pioReadBlock => pioWrites
  | .pioWriteBlock => [.fault, .trace, .cursor, .reg .data]
  | .finishData _ => finishWrites
  | .abortSeq _ | .abortCmd | .abortData => abortWrites
  | .schedule .finish => [.finishPend]
  | .schedule .card => [.cardPend]
  | .log _ => [.trace]
  | .read8 off => [.fault, .trace] ++ readField p off
  | .read32 off => [.fault, .trace] ++ readField p off
  | .write8 off _ => [.fault, .trace] ++ regField p off
  | .write32 off _ => [.fault, .trace] ++ regField p off
  | .write16 off _ => [.fault, .trace] ++ regField p off
  | .cmdbyte _ => [.fault, .trace, .reg .cmd]
  | .argword _ => [.fault, .trace, .reg .arg]
  | .rspctlNone | .rspctlShort | .rspctlShortbusy | .rspctlLong | .rspctlR3
  | .shapeNone | .shapeShort | .shapeShortbusy | .shapeLong | .shapeR3 =>
    [.fault, .trace, .reg .cmdCtrl]
  | .shapeInvalid _ => [.fault, .trace, .reg .cmdCtrl]
  | .datactlRead | .datactlWrite | .dirRead | .dirWrite => [.fault, .trace, .reg .dataCtrl]
  | .blksz16 _ => [.fault, .trace, .reg .blksize]
  | .stCmdComplete _ | .stXferComplete _ | .stSpaceAvail _ | .stDataAvail _ | .stCardInsert _
  | .stCardRemove _ | .stCardInt _ | .stCmdTimeout _ | .stCmdCrc _ | .stCmdEndBit _ | .stCmdIndex _
  | .stDataTimeout _ | .stDataCrc _ | .stDataEndBit _ | .stUnclassified _ => dispatchWrites
  | .spuriousZero => [.trace]
  | .spuriousAllOnes => [.trace, .reg .intStatus]
  | .roleSbc | .rolePrimary | .roleStop => [.curCmd]
  | .opInvalid _ => []

end Sys2Proof.Machine
end

