-- ==== Sys2Proof/Certificates/Slice0/Obligations.lean ====
section
/-! DEFINITION. The statements for the provers. Each docstring names the rules of spec/ it formalises;
where a clause rests on a choice of the model it names the log entry. -/

open Sys2Proof Sys2Proof.Machine

/-! ## Encoding -/

/-- Decoding the encoding of a well-formed step gives it back, with every operand it carries. -/
def Obligations.DecodeEncode : Prop :=
  ∀ i : Instr, i.wellFormed = true → decode (encode i) = .ok i

/-- An entry that decodes is, format and bytes, the encoding of the step it decodes to, and that step
is well formed: no two entries of one format stand for one step. -/
def Obligations.EncodeDecode : Prop :=
  ∀ (e : Entry) (i : Instr), decode e = .ok i →
    i.wellFormed = true ∧ (encode i).fmt = e.fmt ∧ (encode i).bytes = e.bytes

/-- R99, R100, R111: an OP code decodes to a step with a name exactly where the two tables name it;
any other decodes to OP_INVALID, which the machine refuses (log 16). -/
def Obligations.OpCodesTotal : Prop :=
  (∀ (c : Byte) (q : Request), namedOp c = false →
    decode { fmt := .op, bytes := [c], req := q } = .ok (.opInvalid c)) ∧
  (∀ (c : Byte) (q : Request), namedOp c = true →
    ∃ (operands : List Byte) (i : Instr),
      decode { fmt := .op, bytes := c :: operands, req := q } = .ok i ∧ ∀ d, i ≠ .opInvalid d) ∧
  (∀ (c : Byte) (s : State), s.fault = none → exec (.opInvalid c) s = .refused (.invalidOp c))

/-- Words written out from the tables of R87 to R100, at least one for each of the twelve formats, decode
to the step they stand for. Operand bytes, and the second byte of a POWER_UP entry, are log 20; that the
word 0x22, which has two classified bits, is the row of its first is log 14. -/
def Obligations.DecodeWords : Prop :=
  let w (f : Format) (bs : List Byte) := decode { fmt := f, bytes := bs, req := Request.blank }
  w .op [0x04] = .ok .irq ∧
  w .op [0x0A, 0x01, 0x00, 0x01, 0x00] = .ok (.envRaise 0x00010001) ∧
  w .op [0x16, 0x00, 0x02, 0x01] = .ok (.triggerBlock 0x0200 .write) ∧
  w .op [0x24, 0x10, 0, 0, 0, 0x40, 0x00] = .ok (.write16 0x10 0x0040) ∧
  w .cmdByte [0x52] = .ok (.cmdbyte 18) ∧
  w .argWord [0x00, 0x00, 0x10, 0x00] = .ok (.argword 0x00001000) ∧
  w .rspCtl [0x03] = .ok .rspctlShortbusy ∧
  w .dataCtl [0x82] = .ok .datactlWrite ∧
  w .blkSz [0x00, 0x02] = .ok (.blksz16 512) ∧
  w .abortCtl [0x04] = .ok .abortData ∧
  w .powerCtl [0x00] = .ok .powerOff ∧
  w .powerCtl [0x01, 0x00] = .ok .powerUp ∧
  w .intStat [0x22, 0, 0, 0] = .ok (.stXferComplete 0x22) ∧
  w .intStat [0, 0, 0, 0x40] = .ok (.stUnclassified 0x40000000) ∧
  w .intStat [0xFF, 0xFF, 0xFF, 0xFF] = .ok .spuriousAllOnes ∧
  w .shape [5] = .ok (.shapeInvalid 5) ∧
  w .dir [1] = .ok .dirWrite ∧
  w .role [2] = .ok .roleStop

/-! ## Steps of the machine -/

/-- A step runs the decoded step: the agenda's first entry, taken off it (R107; log 10), or, where the
agenda is empty, the step some agent offers (R79, R264; log 11), which runs if it is a top-level one that
is enabled and else leaves the machine as it is between steps. An entry that names no step is refused. -/
def Obligations.StepRuns : Prop :=
  (∀ (s : State) (e : Entry) (rest : List Entry) (i : Instr),
    s.agenda = e :: rest → decode e = .ok i → step s = exec i { s with agenda := rest }) ∧
  (∀ (s : State) (e : Entry) (rest : List Entry) (d : DecodeError),
    s.agenda = e :: rest → s.fault = none → decode e = .error d →
      step s = .refused (.undecodable d)) ∧
  (∀ s : State, s.agenda = [] →
    step s = runOffer (Config.freeStep s.turns) { s with turns := s.turns + 1 }) ∧
  (∀ (i : Instr) (s : State), i.topLevel = true →
    (∀ m, exec i s ≠ .refused (.notEnabled m)) → runOffer i s = exec i s) ∧
  (∀ (i : Instr) (s : State) (m : String), i.topLevel = true →
    exec i s = .refused (.notEnabled m) → runOffer i s = .next s) ∧
  (∀ (i : Instr) (s : State), i.topLevel = false → s.fault = none → runOffer i s = .next s)

/-- R253: once a fault is set nothing is enabled, so it is never cleared; and a step that sets one ends
with that fault as the last event of the trace. -/
def Obligations.FaultEndsEverything : Prop :=
  (∀ (i : Instr) (s : State) (r : FaultReason), s.fault = some r →
    exec i s = .fault (.halted r)) ∧
  (∀ (s : State) (r : FaultReason), s.fault = some r → ∀ t, step s ≠ .next t) ∧
  (∀ (i : Instr) (s t : State), exec i s = .next t →
    s.fault = none ∧ ∀ r, t.fault = some r → t.trace.getLast? = some (.fault r))

/-- R79, R235, R282: a step is refused as not enabled exactly where its agent is not enabled. -/
def Obligations.EnabledExactly : Prop :=
  ∀ (i : Instr) (s : State), s.fault = none →
    (enabled i s = false ↔ ∃ m, exec i s = .refused (.notEnabled m))

/-- R62, R120, R256: from a state that meets the invariant no whole step makes an access the window
does not have, and none acts on an object that does not exist. -/
def Obligations.WholeStepsSafe : Prop :=
  ∀ (i : Instr) (s : State), invOk s = true → wholeStep i = true → safeAnswer (exec i s) = true

/-- Every whole step keeps the invariant, and so does the machine's own step while its agenda names
whole steps only: canonical memory inside the address space (R63), the slot naming a launched command
(R36), the cursor inside a list that covers the blocks left (R39, R183), nothing outstanding while Idle
or detached (R206, R235), an active Request always on its way to completion (R21, R299). -/
def Obligations.StepKeepsInv : Prop :=
  (∀ (i : Instr) (s t : State), invOk s = true → wholeStep i = true → exec i s = .next t →
    invOk t = true) ∧
  (∀ s t : State, invOk s = true → wholeAgenda s = true → step s = .next t →
    invOk t = true ∧ wholeAgenda t = true)

/-- R63: every step, of any kind and in any state, keeps issuer memory in its canonical form and inside
the address space. -/
def Obligations.StepKeepsMemory : Prop :=
  ∀ s t : State, memoryOk s = true → step s = .next t → memoryOk t = true

/-- R280, R282, R281: attach from the state before the first attach gives the reset state; its engine
fields are those of R280. Where R280 says unspecified the model's values are log 2 and log 3. -/
def Obligations.ResetState : Prop :=
  exec .attach State.beforeAttach = .next State.reset ∧
  State.reset.attached = true ∧ State.reset.req = none ∧ State.reset.curCmd = none ∧
  State.reset.curData = false ∧ State.reset.dataEarly = false ∧
  State.reset.cursor = { blocksLeft := 0, sgIdx := 0, sgOff := 0, accOff := 0 } ∧
  State.reset.timer = none ∧ State.reset.finishPend = false ∧ State.reset.cardPend = false ∧
  State.reset.notifyQ = [] ∧ State.reset.fault = none ∧ phase State.reset = .idle ∧
  State.reset.win.intEnable = State.reset.params.irqEnableMask

/-- The invariant holds at reset. -/
def Obligations.ResetInv : Prop :=
  invOk State.reset = true ∧ wholeAgenda State.reset = true

/-! ## Frames -/

/-- The frame of every step: it changes no piece of state but those mayWrite lists for it. Memory is
compared byte by byte, the window register by register. Parameters must be legal (R29, R72), since
under overlapping offsets a write could land in another register. -/
def Obligations.Frame : Prop :=
  ∀ (i : Instr) (s t : State), paramsOk s.params = true → exec i s = .next t →
    ∀ f : Field, f ∉ mayWrite s.params i → agree f s t

/-- R59, R63: every byte of issuer memory a step does not store to reads as before; the addresses are
those of the block the step moves, and none for a step that moves no read block. -/
def Obligations.MemoryFrame : Prop :=
  ∀ (i : Instr) (s t : State) (a : Nat), paramsOk s.params = true → exec i s = .next t →
    a ∉ storedAt i s → Memory.read t.mem a = Memory.read s.mem a

/-- R8, R44, R124: a step leaves the parameters as they are and only adds to the trace; every register
access it adds is one the register table lists, in its width and direction. -/
def Obligations.LegalAccessesOnly : Prop :=
  ∀ (i : Instr) (s t : State), exec i s = .next t →
    t.params = s.params ∧
    ∃ es, t.trace = s.trace ++ es ∧ ∀ e ∈ es, legalEvent s.params e = true

/-- R237: the engine never writes the fields the issuer supplies; a Request that is active after a step
and was active before it has the same ones, and only SUBMIT makes a Request active. -/
def Obligations.IssuerFieldsKept : Prop :=
  ∀ (i : Instr) (s t : State) (q' : Request), exec i s = .next t → t.req = some q' →
    (∀ q, s.req = some q → Request.issuerPart q' = Request.issuerPart q) ∧
    (s.req = none → ∃ r, i = .submit r ∧
      Request.issuerPart q' = Request.issuerPart (Request.withRoles r))

/-! ## Register interface -/

/-- R115, R116: what each readable register shows, and the read recorded. PRESENT shows the word drawn, or
by the parameter presentRead its card bit as it holds it (log 8); the value a draw gives stands in the
register after (log 9). -/
def Obligations.ReadRegisters : Prop :=
  ∀ (s : State) (off : Word), ready s = true →
    let o := off.toNat
    let v := drawAt s 0
    let u := afterDraws 1 s
    (o = s.params.offAbort →
      exec (.read8 off) s = .next { u with
        win := { s.win with abort := v.setWidth 8 }
        trace := s.trace ++ [.r8 o (v.setWidth 8)] }) ∧
    (o = s.params.offIntStatus →
      exec (.read32 off) s = .next { s with trace := s.trace ++ [.r32 o s.win.intStatus] }) ∧
    (o = s.params.offPresent →
      exec (.read32 off) s = .next { u with
        win := { s.win with present := presentShown s }
        trace := s.trace ++ [.r32 o (presentShown s)] }) ∧
    (o = s.params.offResp0 →
      exec (.read32 off) s = .next { u with
        win := { s.win with resp0 := v }, trace := s.trace ++ [.r32 o v] }) ∧
    (o = s.params.offResp1 →
      exec (.read32 off) s = .next { u with
        win := { s.win with resp1 := v }, trace := s.trace ++ [.r32 o v] }) ∧
    (o = s.params.offResp2 →
      exec (.read32 off) s = .next { u with
        win := { s.win with resp2 := v }, trace := s.trace ++ [.r32 o v] }) ∧
    (o = s.params.offResp3 →
      exec (.read32 off) s = .next { u with
        win := { s.win with resp3 := v }, trace := s.trace ++ [.r32 o v] }) ∧
    (o = s.params.offData →
      exec (.read32 off) s = .next { u with
        win := { s.win with data := v }, trace := s.trace ++ [.r32 o v] })

/-- R117, R118, R119, R30: what a write of each writable register latches; INT_STATUS clears the bits
written as one; the write recorded. -/
def Obligations.WriteRegisters : Prop :=
  ∀ (s : State) (off : Word) (b : Byte) (h : Half) (w : Word), ready s = true →
    let o := off.toNat
    (o = s.params.offCmd → exec (.write8 off b) s = .next { s with
        win := { s.win with cmd := b }, trace := s.trace ++ [.w8 o b] }) ∧
    (o = s.params.offCmdCtrl → exec (.write8 off b) s = .next { s with
        win := { s.win with cmdCtrl := b }, trace := s.trace ++ [.w8 o b] }) ∧
    (o = s.params.offDataCtrl → exec (.write8 off b) s = .next { s with
        win := { s.win with dataCtrl := b }, trace := s.trace ++ [.w8 o b] }) ∧
    (o = s.params.offAbort → exec (.write8 off b) s = .next { s with
        win := { s.win with abort := b }, trace := s.trace ++ [.w8 o b] }) ∧
    (o = s.params.offPower → exec (.write8 off b) s = .next { s with
        win := { s.win with power := b }, trace := s.trace ++ [.w8 o b] }) ∧
    (o = s.params.offBlksize → exec (.write16 off h) s = .next { s with
        win := { s.win with blksize := h }, trace := s.trace ++ [.w16 o h] }) ∧
    (o = s.params.offIntStatus → exec (.write32 off w) s = .next { s with
        win := { s.win with intStatus := s.win.intStatus &&& ~~~w }
        trace := s.trace ++ [.w32 o w] }) ∧
    (o = s.params.offIntEnable → exec (.write32 off w) s = .next { s with
        win := { s.win with intEnable := w }, trace := s.trace ++ [.w32 o w] }) ∧
    (o = s.params.offArg → exec (.write32 off w) s = .next { s with
        win := { s.win with arg := w }, trace := s.trace ++ [.w32 o w] }) ∧
    (o = s.params.offData → exec (.write32 off w) s = .next { s with
        win := { s.win with data := w }, trace := s.trace ++ [.w32 o w] })

/-- R62, R120: an access the register table does not list, or any access while detached, raises
WindowAccess and does nothing else; every other access completes with no fault. -/
def Obligations.WindowCheck : Prop :=
  ∀ (s : State) (off : Word) (b : Byte) (h : Half) (w : Word),
    s.fault = none → paramsOk s.params = true →
    let o := off.toNat
    let bad := { s with fault := some .windowAccess, trace := s.trace ++ [.fault .windowAccess] }
    let holds (legal : Bool) (a : Answer) : Prop :=
      if legal then ∃ t, a = .next t ∧ t.fault = none else a = .next bad
    holds (legalAccess s o 1 regReadable) (exec (.read8 off) s) ∧
    holds (legalAccess s o 4 regReadable) (exec (.read32 off) s) ∧
    holds (legalAccess s o 1 regWritable) (exec (.write8 off b) s) ∧
    holds (legalAccess s o 2 regWritable) (exec (.write16 off h) s) ∧
    holds (legalAccess s o 4 regWritable) (exec (.write32 off w) s)

/-- R123, R129, R130, R41, R247: a log appends its event and changes nothing else, two logs are two
events; arming sets the one timer and replaces an armed count; cancelling disarms it; scheduling sets
one flag and has no further effect where it is set. -/
def Obligations.LogTimerSchedule : Prop :=
  ∀ (s : State) (n m : Nat) (k : LogKind), s.fault = none →
    exec (.log k) s = .next { s with trace := s.trace ++ [.log k] } ∧
    exec (.log k) { s with trace := s.trace ++ [.log k] } =
      .next { s with trace := s.trace ++ [.log k, .log k] } ∧
    exec (.arm n) s = .next { s with timer := some n, trace := s.trace ++ [.arm n] } ∧
    exec (.arm m) { s with timer := some n } =
      .next { s with timer := some m, trace := s.trace ++ [.arm m] } ∧
    exec .cancel s = .next { s with timer := none, trace := s.trace ++ [.cancel] } ∧
    exec (.schedule .finish) s = .next { s with finishPend := true } ∧
    exec (.schedule .card) s = .next { s with cardPend := true } ∧
    (s.finishPend = true → exec (.schedule .finish) s = .next s) ∧
    (s.cardPend = true → exec (.schedule .card) s = .next s)

/-- R87 to R93, R128, R152: each register-level encoding writes its value to its register; the two abort
words run their abort sequence (log 13). -/
def Obligations.RegisterEncodings : Prop :=
  ∀ s : State, ready s = true →
    let p := s.params
    let ctrl (v : Byte) : Answer := .next { s with
      win := { s.win with cmdCtrl := v }, trace := s.trace ++ [.w8 p.offCmdCtrl v] }
    let dctl (v : Byte) : Answer := .next { s with
      win := { s.win with dataCtrl := v }, trace := s.trace ++ [.w8 p.offDataCtrl v] }
    (∀ opcode : BitVec 6,
      let v : Byte := p.cmdStartTag ||| opcode.setWidth 8
      exec (.cmdbyte opcode) s = .next { s with
        win := { s.win with cmd := v }, trace := s.trace ++ [.w8 p.offCmd v] }) ∧
    (∀ a : Word,
      let v := if p.argSwap then bswap32 a else a
      exec (.argword a) s = .next { s with
        win := { s.win with arg := v }, trace := s.trace ++ [.w32 p.offArg v] }) ∧
    exec .rspctlNone s = ctrl 0 ∧
    exec .rspctlShort s = ctrl p.rspTagA ∧
    exec .rspctlShortbusy s = ctrl (p.rspTagA ||| p.rspTagB) ∧
    exec .rspctlLong s = ctrl p.rspTagC ∧
    exec .rspctlR3 s = ctrl p.rspTagD ∧
    exec .datactlRead s = dctl (p.dctlRead ||| p.dctlStart) ∧
    exec .datactlWrite s = dctl (p.dctlWrite ||| p.dctlStart) ∧
    (∀ n : BitVec 10,
      let v : Half := n.setWidth 16
      exec (.blksz16 n) s = .next { s with
        win := { s.win with blksize := v }, trace := s.trace ++ [.w16 p.offBlksize v] }) ∧
    (∃ t, exec .abortCmd s = .next t ∧ exec (.abortSeq .cmd) s = .next t ∧ t.fault = none) ∧
    (∃ t, exec .abortData s = .next t ∧ exec (.abortSeq .data) s = .next t ∧ t.fault = none)

/-- R97, R98, R125, R126, R132, R152: each field code acts as the line of the rule that takes it (log
15): a shape launches, codes 5 to 7 raise ConfigShape, a direction starts a block, a role takes the
slot. -/
def Obligations.FieldCodes : Prop :=
  (∀ s : State, ready s = true →
    let p := s.params
    let ctrl (v : Byte) : Answer := .next { s with
      win := { s.win with cmdCtrl := v }, trace := s.trace ++ [.w8 p.offCmdCtrl v] }
    let dctl (v : Byte) : Answer := .next { s with
      win := { s.win with dataCtrl := v }, trace := s.trace ++ [.w8 p.offDataCtrl v] }
    exec .shapeNone s = ctrl 0 ∧
    exec .shapeShort s = ctrl p.rspTagA ∧
    exec .shapeShortbusy s = ctrl (p.rspTagA ||| p.rspTagB) ∧
    exec .shapeLong s = ctrl p.rspTagC ∧
    exec .shapeR3 s = ctrl p.rspTagD ∧
    exec .dirRead s = dctl (p.dctlRead ||| p.dctlStart) ∧
    exec .dirWrite s = dctl (p.dctlWrite ||| p.dctlStart)) ∧
  (∀ (s : State) (code : BitVec 3), s.fault = none → 5 ≤ code.toNat →
    exec (.shapeInvalid code) s = .next { s with
      fault := some .configShape, trace := s.trace ++ [.fault .configShape] }) ∧
  (∀ s : State, s.fault = none →
    ((cmdOf s .sbc).isSome → exec .roleSbc s = .next { s with curCmd := some .sbc }) ∧
    ((cmdOf s .primary).isSome → exec .rolePrimary s = .next { s with curCmd := some .primary }) ∧
    ((cmdOf s .stop).isSome → exec .roleStop s = .next { s with curCmd := some .stop }))

/-! ## Command engine -/

/-- R125 to R128: issuing a command without data takes the slot, arms the watchdog, and writes opcode,
argument and control byte in that order. -/
def Obligations.IssueCommand : Prop :=
  ∀ (s : State) (r : Role) (c : Command) (sh : Shape), ready s = true → cmdOf s r = some c →
    hasData s c = false → c.opcode < 64 → Shape.ofCode c.shapeCode = some sh →
    let p := s.params
    let n := if 9000 < c.timeoutMs then (c.timeoutMs + 999) / 1000 + 1 else 10
    let b : Byte := p.cmdStartTag ||| BitVec.ofNat 8 c.opcode
    let a := if p.argSwap then bswap32 c.arg else c.arg
    exec (.issue r) s = .next { s with
      curCmd := some r
      timer := some n
      win := { s.win with cmd := b, arg := a, cmdCtrl := rspCtl p sh }
      trace := s.trace ++
        [.arm n, .w8 p.offCmd b, .w32 p.offArg a, .w8 p.offCmdCtrl (rspCtl p sh)] }

/-- R125, R127, R131, R150, R154: issuing the primary command of a Request with data arms 10 units,
attaches the Data phase and starts its first block before the command is written. -/
def Obligations.IssueWithData : Prop :=
  ∀ (s : State) (r : Role) (c : Command) (q : Request) (d : Data) (sh : Shape), ready s = true →
    cmdOf s r = some c → c.role = .primary → s.req = some q → q.data = some d →
    sizesOk d = true → sgInRange s.params d = true → sgCovers d = true →
    c.opcode < 64 → Shape.ofCode c.shapeCode = some sh →
    let p := s.params
    let b : Byte := p.cmdStartTag ||| BitVec.ofNat 8 c.opcode
    let a := if p.argSwap then bswap32 c.arg else c.arg
    let z : Half := BitVec.ofNat 16 d.blksz
    exec (.issue r) s = .next { s with
      req := some { q with data := some { d with bytesXfered := 0 } }
      curCmd := some r
      curData := true
      dataEarly := false
      cursor := { blocksLeft := d.blocks, sgIdx := 0, sgOff := 0, accOff := 0 }
      timer := some 10
      win := { s.win with
        blksize := z, dataCtrl := dataCtl p d.dir, cmd := b, arg := a, cmdCtrl := rspCtl p sh }
      trace := s.trace ++
        [.arm 10, .w16 p.offBlksize z, .w8 p.offDataCtrl (dataCtl p d.dir), .w8 p.offCmd b,
          .w32 p.offArg a, .w8 p.offCmdCtrl (rspCtl p sh)] }

/-- R132, R255: issue's faults in their order, the Data phase's first, ConfigOpcode before the CMD write,
ConfigShape after the CMD and ARG writes; a faulted state is terminal. -/
def Obligations.IssueFaults : Prop :=
  ∀ (s : State) (r : Role) (c : Command), ready s = true → cmdOf s r = some c →
    ∃ t, exec (.issue r) s = .next t ∧
      t.fault =
        (match (if hasData s c then dataOf s else none) with
          | some d =>
            if !sizesOk d then some .configSize
            else if !sgInRange s.params d then some .configSgRange
            else if !sgCovers d then some .configSgShort
            else if 64 ≤ c.opcode then some .configOpcode
            else if 5 ≤ c.shapeCode.toNat then some .configShape
            else none
          | none =>
            if 64 ≤ c.opcode then some .configOpcode
            else if 5 ≤ c.shapeCode.toNat then some .configShape
            else none) ∧
      (t.fault = some .configOpcode → t.win.cmd = s.win.cmd ∧ t.win.arg = s.win.arg ∧
        t.win.cmdCtrl = s.win.cmdCtrl) ∧
      (t.fault = some .configShape →
        t.win.cmd = s.params.cmdStartTag ||| BitVec.ofNat 8 c.opcode ∧
        t.win.arg = (if s.params.argSwap then bswap32 c.arg else c.arg) ∧
        t.win.cmdCtrl = s.win.cmdCtrl) ∧
      (t.fault.isSome → ∀ i u, exec i t ≠ .next u)

/-- R135, R200: with no command outstanding a command interrupt changes no engine field and logs
SpuriousCmd; inside a dispatch its bits are acknowledged before. -/
def Obligations.SpuriousCommand : Prop :=
  ∀ (s : State) (mask : Word), s.fault = none → s.curCmd = none →
    exec (.cmdIrq mask) s = .next { s with trace := s.trace ++ [.log .spuriousCmd] } ∧
    (ready s = true → s.win.intStatus = mask → mask ≠ 0 → mask &&& ~~~cmdMask s.params = 0 →
      mask ≠ BitVec.allOnes 32 →
      exec .irq s = .next { s with
        win := { s.win with intStatus := 0 }
        trace := s.trace ++ [.r32 s.params.offIntStatus mask, .w32 s.params.offIntStatus mask,
          .log .spuriousCmd] })

/-- R136 to R139, R54: a command interrupt with a command outstanding. An error is classified Timeout
before ProtocolViolation, recorded on the command and handed to the request-finish work; the slot stays
and no port is read, CMD_COMPLETE or not. With no error a busy-type command beside a Data phase is
logged, CMD_COMPLETE runs finish_command, and without it nothing more happens. -/
def Obligations.CommandInterrupt : Prop :=
  ∀ (s : State) (mask : Word) (r : Role) (q : Request) (c : Command), s.fault = none →
    s.curCmd = some r → s.req = some q → Request.command q r = some c →
    let p := s.params
    let withError (e : Err) : Answer := .next { s with
      req := some (Request.mapCommand q r (fun x => { x with error := e })), finishPend := true }
    let t := if Shape.ofCode c.shapeCode = some .shortBusy ∧ s.curData = true then
        { s with trace := s.trace ++ [.log .busyWithData] } else s
    (mask &&& cmdErrTo p ≠ 0 → exec (.cmdIrq mask) s = withError .timeout) ∧
    (mask &&& cmdErrTo p = 0 → mask &&& cmdErrProt p ≠ 0 →
      exec (.cmdIrq mask) s = withError .protocolViolation) ∧
    (mask &&& cmdErrTo p = 0 → mask &&& cmdErrProt p = 0 →
      mask &&& bitMask p.stCmdComplete ≠ 0 → exec (.cmdIrq mask) s = exec .finishCmd t) ∧
    (mask &&& cmdErrTo p = 0 → mask &&& cmdErrProt p = 0 →
      mask &&& bitMask p.stCmdComplete = 0 → exec (.cmdIrq mask) s = .next t)

/-- R140 to R146, R102 (a long response's words are read at OFF_RESP0 to OFF_RESP3, log 35):
finish_command captures the outstanding command's response, clears its error and the
slot; then the SBC command issues the primary; with no Data phase the request-finish work is scheduled;
where the data arrived first finish runs with the Data object's error; with data running it ends. -/
def Obligations.FinishCommand : Prop :=
  ∀ (s : State) (r : Role) (c : Command) (sh : Shape), ready s = true → s.curCmd = some r →
    cmdOf s r = some c → Shape.ofCode c.shapeCode = some sh →
    let t := captured r sh s
    (r = .sbc → exec .finishCmd s = exec (.issue .primary) t) ∧
    (r ≠ .sbc → s.curData = false → exec .finishCmd s = .next { t with finishPend := true }) ∧
    (∀ d, r ≠ .sbc → s.curData = true → s.dataEarly = true → dataOf s = some d →
      exec .finishCmd s = exec (.finishData d.error) t) ∧
    (r ≠ .sbc → s.curData = true → s.dataEarly = false → exec .finishCmd s = .next t)

/-! ## Data session -/

/-- R150, R153, R154: prepare does nothing without data (nor without an active Request, log 36); with an accepted Data object it resets the byte
count and the cursor, attaches the Data phase and starts the first block; a list out of range or too
short is refused before anything is written. -/
def Obligations.Prepare : Prop :=
  ∀ s : State, s.fault = none →
    (dataOf s = none → exec .prepare s = .next s) ∧
    (∀ q d, s.req = some q → q.data = some d → sizesOk d = true →
      ((∃ e ∈ d.sg, 2 ^ s.params.memAddrWidth < e.addr + e.len) →
        exec .prepare s = .next { s with
          fault := some .configSgRange, trace := s.trace ++ [.fault .configSgRange] }) ∧
      ((∀ e ∈ d.sg, e.addr + e.len ≤ 2 ^ s.params.memAddrWidth) →
        (d.sg.map (fun e => e.len)).sum < d.blksz * d.blocks →
        exec .prepare s = .next { s with
          fault := some .configSgShort, trace := s.trace ++ [.fault .configSgShort] }) ∧
      ((∀ e ∈ d.sg, e.addr + e.len ≤ 2 ^ s.params.memAddrWidth) →
        d.blksz * d.blocks ≤ (d.sg.map (fun e => e.len)).sum → ready s = true →
        exec .prepare s = .next { s with
          req := some { q with data := some { d with bytesXfered := 0 } }
          curData := true
          dataEarly := false
          cursor := { blocksLeft := d.blocks, sgIdx := 0, sgOff := 0, accOff := 0 }
          win := { s.win with blksize := BitVec.ofNat 16 d.blksz, dataCtrl := dataCtl s.params d.dir }
          trace := s.trace ++ [.w16 s.params.offBlksize (BitVec.ofNat 16 d.blksz),
            .w8 s.params.offDataCtrl (dataCtl s.params d.dir)] }))

/-- R151: the size check, with the product computed exactly. -/
def Obligations.SizeCheck : Prop :=
  ∀ (s : State) (d : Data), s.fault = none → dataOf s = some d →
    (512 < d.blksz ∨ 65536 < d.blocks ∨ 524288 < d.blksz * d.blocks ∨ d.blksz = 0 ∨ d.blocks = 0 →
      exec .prepare s = .next { s with
        fault := some .configSize, trace := s.trace ++ [.fault .configSize] }) ∧
    (d.blksz ≤ 512 → d.blocks ≤ 65536 → d.blksz * d.blocks ≤ 524288 → 0 < d.blksz → 0 < d.blocks →
      ∃ t, exec .prepare s = .next t ∧ t.fault ≠ some .configSize)

/-- R152: trigger_block writes the block size, then the control byte with the start flag. -/
def Obligations.TriggerBlock : Prop :=
  ∀ (s : State) (size : Half) (dir : Dir), ready s = true →
    let p := s.params
    let v : Byte := (if dir = .read then p.dctlRead else p.dctlWrite) ||| p.dctlStart
    exec (.triggerBlock size dir) s = .next { s with
      win := { s.win with blksize := size, dataCtrl := v }
      trace := s.trace ++ [.w16 p.offBlksize size, .w8 p.offDataCtrl v] }

/-- R157, R158, R159: a data interrupt with no Data phase ends a busy command, or is spurious; its error
bits force the outstanding command to Timeout. A slot that names a Command the active Request does not
hold counts as not busy (log 36). -/
def Obligations.DataInterruptNoPhase : Prop :=
  ∀ (s : State) (mask : Word), s.fault = none → s.curData = false →
    let busy := ∃ r c, s.curCmd = some r ∧ cmdOf s r = some c ∧
      Shape.ofCode c.shapeCode = some .shortBusy
    let done := mask &&& bitMask s.params.stXferComplete ≠ 0
    let logged := { s with trace := s.trace ++ [.log .spuriousData] }
    (busy → done → exec (.dataIrq mask) s = exec .finishCmd s) ∧
    (¬ (busy ∧ done) → mask &&& dataErr s.params = 0 → exec (.dataIrq mask) s = .next logged) ∧
    (s.curCmd = none → exec (.dataIrq mask) s = .next logged) ∧
    (¬ (busy ∧ done) → mask &&& dataErr s.params ≠ 0 →
      ∀ r q c, s.curCmd = some r → s.req = some q → Request.command q r = some c →
        exec (.dataIrq mask) s = .next { logged with
          req := some (Request.mapCommand q r (fun x => { x with error := .timeout }))
          finishPend := true })

/-- R160 to R165: a data interrupt with a Data phase: an error finishes at once, Timeout before
ProtocolViolation; else a transfer request moves one block, but once dataEarly is set only where the
parameter earlyBlocks follows R156 and not R287 (log 37); then transfer-complete is marked early, starts
the next block, or finishes. -/
def Obligations.DataInterruptPhase : Prop :=
  ∀ (s : State) (mask : Word) (d : Data), s.fault = none → s.curData = true → dataOf s = some d →
    let p := s.params
    (mask &&& dataErrTo p ≠ 0 → exec (.dataIrq mask) s = exec (.finishData .timeout) s) ∧
    (mask &&& dataErrTo p = 0 → mask &&& dataErrProt p ≠ 0 →
      exec (.dataIrq mask) s = exec (.finishData .protocolViolation) s) ∧
    (mask &&& (dataErrTo p ||| dataErrProt p) = 0 →
      exec (.dataIrq mask) s =
        thenStep (if mask &&& dataXfer p ≠ 0 ∧ (s.dataEarly = false ∨ p.earlyBlocks = .moved)
            then exec .pio s else .next s) (fun t =>
          if mask &&& bitMask p.stXferComplete = 0 then .next t
          else if t.curCmd ≠ none then .next { t with dataEarly := true }
          else if 0 < t.cursor.blocksLeft then exec (.triggerBlock (BitVec.ofNat 16 d.blksz) d.dir) t
          else exec (.finishData .ok) t)) ∧
    (mask &&& (dataErrTo p ||| dataErrProt p ||| dataXfer p) = 0 →
      mask &&& bitMask p.stXferComplete ≠ 0 → s.curCmd ≠ none →
      exec (.dataIrq mask) s = .next { s with dataEarly := true })

/-- R166 to R171: finish detaches the Data phase and records the outcome and the byte count. Where the
stop policy asks for the stop command it issues it, after an error with the two abort sequences before,
cmd-abort then data-abort, each in full; otherwise it schedules the request-finish work. -/
def Obligations.FinishData : Prop :=
  ∀ (s : State) (e : Err) (q : Request) (d : Data), ready s = true → s.req = some q →
    q.data = some d →
    let closed := { s with
      req := some { q with data := some { d with
        error := e, bytesXfered := if e = .ok then d.blksz * d.blocks else 0 } }
      curData := false
      dataEarly := false }
    let stops := d.stop ≠ none ∧ (q.sbc = none ∨ (e ≠ .ok ∧ s.params.stopPolicy = .b))
    (¬ stops → exec (.finishData e) s = .next { closed with finishPend := true }) ∧
    (stops → e = .ok → exec (.finishData e) s = exec (.issue .stop) closed) ∧
    (stops → e ≠ .ok → ∃ t u, exec (.abortSeq .cmd) closed = .next t ∧
      exec (.abortSeq .data) t = .next u ∧ t.fault = none ∧ u.fault = none ∧
      exec (.finishData e) s = exec (.issue .stop) u)

/-! ## Transfer port -/

/-- R175, R180: nothing moves where no block is left; otherwise one block moves in the Data object's own
direction and the counter drops by one. -/
def Obligations.PioMovesBlock : Prop :=
  ∀ s : State, s.fault = none →
    (s.cursor.blocksLeft = 0 → exec .pio s = .next s) ∧
    (∀ d, 0 < s.cursor.blocksLeft → dataOf s = some d → reaches s d = true → ready s = true →
      ∃ t, exec (if d.dir = .read then .pioReadBlock else .pioWriteBlock) s = .next t ∧
        t.fault = none ∧
        exec .pio s = .next { t with
          cursor := { t.cursor with blocksLeft := s.cursor.blocksLeft - 1 } })

/-- R177, R179, R185, R187: a read block takes one data-port word per four bytes, stores its bytes lowest
first at the scatter list's addresses, and leaves the cursor after them. -/
def Obligations.ReadBlock : Prop :=
  ∀ (s : State) (d : Data), ready s = true → dataOf s = some d → reaches s d = true →
    let n := d.blksz
    let words := (n + 3) / 4
    let addrs := blockAddrs s.params d.sg n s.cursor
    exec .pioReadBlock s = .next { afterDraws words s with
      cursor := { cursorAfter d.sg n s.cursor with accOff := 0 }
      mem := storeAll s.mem (addrs.zipIdx.map (fun x => (x.1, portByte s x.2)))
      win := { s.win with data := if words = 0 then s.win.data else drawAt s (words - 1) }
      trace := s.trace ++ readEvents s addrs }

/-- R178, R179, R185, R187: a written block reads the scatter list's bytes in order and writes one
data-port word per four of them, lowest byte first, zero in the lanes past the end. -/
def Obligations.WriteBlock : Prop :=
  ∀ (s : State) (d : Data), ready s = true → dataOf s = some d → reaches s d = true →
    let n := d.blksz
    let words := (n + 3) / 4
    let addrs := blockAddrs s.params d.sg n s.cursor
    let bytes := addrs.map (Memory.read s.mem)
    exec .pioWriteBlock s = .next { s with
      cursor := { cursorAfter d.sg n s.cursor with accOff := 0 }
      win := { s.win with data := if words = 0 then s.win.data else portWord bytes (words - 1) }
      trace := s.trace ++ writeEvents s addrs }

/-- R183: a block that runs off its scatter list raises ConfigSgShort; from a state that meets the
invariant, with a block left of an attached Data phase, none does. -/
def Obligations.ListExhausted : Prop :=
  (∀ (s : State) (d : Data), ready s = true → dataOf s = some d → reaches s d = false →
    (∃ t, exec .pioReadBlock s = .next t ∧ t.fault = some .configSgShort) ∧
    (∃ t, exec .pioWriteBlock s = .next t ∧ t.fault = some .configSgShort)) ∧
  (∀ (s : State) (d : Data), invOk s = true → s.fault = none → s.curData = true →
    0 < s.cursor.blocksLeft → dataOf s = some d → reaches s d = true)

/-- R186: the words one block writes to the port, given back to a block read of the same size, store the
bytes that were written, whatever the two scatter lists. The port's words are given back as the draws
the environment has settled (log 7). -/
def Obligations.RoundTrip : Prop :=
  ∀ (s t s' t' : State) (d d' : Data), ready s = true → ready s' = true →
    dataOf s = some d → dataOf s' = some d' → d'.blksz = d.blksz →
    reaches s d = true → reaches s' d' = true → memoryOk s' = true →
    exec .pioWriteBlock s = .next t →
    s'.answers = dataWords s.params (t.trace.drop s.trace.length) →
    exec .pioReadBlock s' = .next t' →
    let from' := blockAddrs s.params d.sg d.blksz s.cursor
    let to' := blockAddrs s'.params d'.sg d'.blksz s'.cursor
    to'.Nodup →
    to'.map (Memory.read t'.mem) = from'.map (Memory.read s.mem)

/-! ## Dispatcher -/

/-- R192, R197, R293: a status of zero or all ones makes one read and nothing else. -/
def Obligations.SpuriousStatus : Prop :=
  ∀ s : State, ready s = true →
    s.win.intStatus = 0 ∨ s.win.intStatus = BitVec.allOnes 32 →
    exec .irq s = .next { s with
      trace := s.trace ++ [.r32 s.params.offIntStatus s.win.intStatus] }

/-- R190, R191, R193 to R196, R200, R259: any other status word: card, command, data and remaining bits
in that order, each category acknowledged by its own write of exactly its bits, then handled. -/
def Obligations.DispatchOrder : Prop :=
  ∀ s : State, ready s = true → s.win.intStatus ≠ 0 → s.win.intStatus ≠ BitVec.allOnes 32 →
    let p := s.params
    let st := s.win.intStatus
    let card := st &&& cardMask p
    let cmd := st &&& cmdMask p
    let data := st &&& dataMask p
    let rest := st &&& ~~~(cardMask p ||| cmdMask p ||| dataMask p)
    exec .irq s =
      thenStep (ackThen card (fun t => .next { t with cardPend := true })
          { s with trace := s.trace ++ [.r32 p.offIntStatus st] }) (fun s1 =>
        thenStep (ackThen cmd (exec (.cmdIrq cmd)) s1) (fun s2 =>
          thenStep (ackThen data (exec (.dataIrq data)) s2) (fun s3 =>
            ackThen rest (fun t => .next { t with
              trace := t.trace
                ++ (if rest &&& cardIntMask p = 0 then []
                  else [.log (.cardIntBits (rest &&& cardIntMask p))])
                ++ (if rest &&& ~~~classified p = 0 then []
                  else [.log (.unclassifiedBits (rest &&& ~~~classified p))]) }) s3)))

/-- R110, R94: a status-word step is its word raised by the environment and then dispatched (log 14). -/
def Obligations.StatusWordsRaise : Prop :=
  ∀ (i : Instr) (w : Word) (s : State), s.fault = none → s.attached = true →
    raisedWord s.params i = some w →
    exec (.envRaise w) s = .next { s with win := { s.win with intStatus := s.win.intStatus ||| w } } ∧
    exec i s = exec .irq { s with win := { s.win with intStatus := s.win.intStatus ||| w } }

/-- R196: from a state that meets the invariant every dispatch completes, and one that raised no fault
and did not read a spurious word leaves INT_STATUS clear: IRQ, and each status word ST_CMD_COMPLETE,
ST_XFER_COMPLETE, ST_SPACE_AVAIL, ST_DATA_AVAIL, ST_CARD_INSERT, ST_CARD_REMOVE, ST_CARD_INT,
ST_CMD_TIMEOUT, ST_CMD_CRC, ST_CMD_END_BIT, ST_CMD_INDEX, ST_DATA_TIMEOUT, ST_DATA_CRC,
ST_DATA_END_BIT, ST_UNCLASSIFIED. -/
def Obligations.DispatchCompletes : Prop :=
  ∀ s : State, invOk s = true → ready s = true →
    (∃ t, exec .irq s = .next t ∧
      (t.fault = none → spuriousWord s.win.intStatus = false → t.win.intStatus = 0)) ∧
    (∀ i w, raisedWord s.params i = some w →
      ∃ t, exec i s = .next t ∧
        (t.fault = none → spuriousWord (s.win.intStatus ||| w) = false → t.win.intStatus = 0))

/-- R192, R193, R196, R203: from a clear INT_STATUS, the words that end no command and move no data (log
14), each with the one bit of its row: card-presence bits schedule the card-presence work; the card interrupt and an unclassified word are
acknowledged and logged; the two spurious words make one read. -/
def Obligations.QuietWords : Prop :=
  ∀ s : State, ready s = true → s.win.intStatus = 0 →
    let p := s.params
    let acked (w : Word) : List Event := [.r32 p.offIntStatus w, .w32 p.offIntStatus w]
    (∀ w, onlyBit p.stCardInsert w → exec (.stCardInsert w) s = .next { s with
      cardPend := true, trace := s.trace ++ acked (bitMask p.stCardInsert) }) ∧
    (∀ w, onlyBit p.stCardRemove w → exec (.stCardRemove w) s = .next { s with
      cardPend := true, trace := s.trace ++ acked (bitMask p.stCardRemove) }) ∧
    (∀ w, onlyBit p.stCardInt w → exec (.stCardInt w) s = .next { s with
      trace := s.trace ++ acked (bitMask p.stCardInt) ++
        [.log (.cardIntBits (bitMask p.stCardInt))] }) ∧
    (∀ w, w ≠ 0 → w &&& classified p = 0 → exec (.stUnclassified w) s = .next { s with
      trace := s.trace ++ acked w ++ [.log (.unclassifiedBits w)] }) ∧
    exec .spuriousZero s = .next { s with trace := s.trace ++ [.r32 p.offIntStatus 0] } ∧
    exec .spuriousAllOnes s = .next { s with
      win := { s.win with intStatus := BitVec.allOnes 32 }
      trace := s.trace ++ [.r32 p.offIntStatus (BitVec.allOnes 32)] }

/-- R136, R137, R140, R147, R190, R251: each command word, with the one bit of its row, with a command
outstanding. An error word
records its error and schedules the request-finish work; the response word of a primary or stop command
with no Data phase captures the response (a long one at OFF_RESP0 to OFF_RESP3, log 35) and schedules
it. -/
def Obligations.CommandWords : Prop :=
  ∀ (s : State) (r : Role) (q : Request) (c : Command), ready s = true → s.win.intStatus = 0 →
    s.curCmd = some r → s.req = some q → Request.command q r = some c →
    let p := s.params
    let acked (bit : Nat) : List Event :=
      [.r32 p.offIntStatus (bitMask bit), .w32 p.offIntStatus (bitMask bit)]
    let failed (bit : Nat) (e : Err) : Answer := .next { s with
      req := some (Request.mapCommand q r (fun x => { x with error := e }))
      finishPend := true
      trace := s.trace ++ acked bit }
    (∀ w, onlyBit p.stCmdTimeout w → exec (.stCmdTimeout w) s = failed p.stCmdTimeout .timeout) ∧
    (∀ w, onlyBit p.stCmdCrc w → exec (.stCmdCrc w) s = failed p.stCmdCrc .protocolViolation) ∧
    (∀ w, onlyBit p.stCmdEndBit w →
      exec (.stCmdEndBit w) s = failed p.stCmdEndBit .protocolViolation) ∧
    (∀ w, onlyBit p.stCmdIndex w →
      exec (.stCmdIndex w) s = failed p.stCmdIndex .protocolViolation) ∧
    (∀ w sh, onlyBit p.stCmdComplete w → r ≠ .sbc → s.curData = false →
      Shape.ofCode c.shapeCode = some sh →
      exec (.stCmdComplete w) s = .next {
        captured r sh { s with trace := s.trace ++ acked p.stCmdComplete } with
        finishPend := true })

/-- R160 to R165, R167, R171, R190, R251: each data word, with the one bit of its row, with a Data phase attached, no stop command and
no command outstanding: an error word finishes with its error, transfer-complete starts the next block
or finishes, a transfer request moves one block (once dataEarly is set, by the parameter earlyBlocks,
log 37). -/
def Obligations.DataWords : Prop :=
  ∀ (s : State) (q : Request) (d : Data), ready s = true → s.win.intStatus = 0 →
    s.curData = true → s.curCmd = none → s.req = some q → q.data = some d → d.stop = none →
    let p := s.params
    let acked (bit : Nat) : List Event :=
      [.r32 p.offIntStatus (bitMask bit), .w32 p.offIntStatus (bitMask bit)]
    let ended (bit : Nat) (e : Err) : Answer := .next { s with
      req := some { q with data := some { d with
        error := e, bytesXfered := if e = .ok then d.blksz * d.blocks else 0 } }
      curData := false
      dataEarly := false
      finishPend := true
      trace := s.trace ++ acked bit }
    let asked (bit : Nat) : Answer :=
      let t := { s with trace := s.trace ++ acked bit }
      if s.dataEarly = true ∧ p.earlyBlocks = .left then .next t else exec .pio t
    (∀ w, onlyBit p.stDataTimeout w →
      exec (.stDataTimeout w) s = ended p.stDataTimeout .timeout) ∧
    (∀ w, onlyBit p.stDataCrc w →
      exec (.stDataCrc w) s = ended p.stDataCrc .protocolViolation) ∧
    (∀ w, onlyBit p.stDataEndBit w →
      exec (.stDataEndBit w) s = ended p.stDataEndBit .protocolViolation) ∧
    (∀ w, onlyBit p.stXferComplete w → s.cursor.blocksLeft = 0 →
      exec (.stXferComplete w) s = ended p.stXferComplete .ok) ∧
    (∀ w, onlyBit p.stXferComplete w → 0 < s.cursor.blocksLeft →
      exec (.stXferComplete w) s = .next { s with
        win := { s.win with blksize := BitVec.ofNat 16 d.blksz, dataCtrl := dataCtl p d.dir }
        trace := s.trace ++ acked p.stXferComplete ++
          [.w16 p.offBlksize (BitVec.ofNat 16 d.blksz), .w8 p.offDataCtrl (dataCtl p d.dir)] }) ∧
    (∀ w, onlyBit p.stDataAvail w → exec (.stDataAvail w) s = asked p.stDataAvail) ∧
    (∀ w, onlyBit p.stSpaceAvail w → exec (.stSpaceAvail w) s = asked p.stSpaceAvail)

/-! ## Completion, abort, watchdog -/

/-- R205 to R210: the request-finish work with no active Request only clears its flag; else it cancels
the timer, armed or not, runs both abort sequences where the command, the data or the stop command
carries a hardware error, detaches everything and queues the Request; where its issuer broke a duty the
block does not check, with free results (R236; log 26). -/
def Obligations.FinishWork : Prop :=
  (∀ s : State, s.fault = none → s.finishPend = true → s.req = none →
    exec .workFinish s = .next { s with finishPend := false }) ∧
  (∀ (s : State) (q : Request), ready s = true → s.finishPend = true → s.req = some q →
    let bad (e : Err) : Prop := e = .timeout ∨ e = .protocolViolation
    let aborts := (∃ c, q.cmd = some c ∧ bad c.error) ∨ (∃ d, q.data = some d ∧ bad d.error) ∨
      (∃ d c, q.data = some d ∧ d.stop = some c ∧ bad c.error)
    let cancelled := { s with
      finishPend := false, timer := none, trace := s.trace ++ [.cancel] }
    let detached (u : State) : State := { u with
      req := none, curCmd := none, curData := false, dataEarly := false
      cursor := { blocksLeft := 0, sgIdx := 0, sgOff := 0, accOff := 0 }
      notifyQ := s.notifyQ ++
        [if s.dutyBroken then Request.withResult (Config.freeResult s.breaches) q else q]
      dutyBroken := false
      breaches := if s.dutyBroken then s.breaches + 1 else s.breaches }
    (¬ aborts → exec .workFinish s = .next (detached cancelled)) ∧
    (aborts → ∃ t u, exec (.abortSeq .cmd) cancelled = .next t ∧
      exec (.abortSeq .data) t = .next u ∧ u.fault = none ∧
      exec .workFinish s = .next (detached u)))

/-- R212, R213, R41: the card-presence work notifies the issuer once and clears its flag, and so it does
after two schedules: one run, one notification, after which, as where nothing was scheduled, it is not
enabled (refused by name, log 17). -/
def Obligations.CardWork : Prop :=
  ∀ s : State, s.fault = none →
    (s.cardPend = true → exec .workCard s = .next { s with
      cardPend := false, trace := s.trace ++ [.notifyPresence] }) ∧
    (s.cardPend = false → exec .workCard s = .refused (.notEnabled "WORK_CARD")) ∧
    ∃ t u v, exec (.schedule .card) s = .next t ∧ exec (.schedule .card) t = .next u ∧
      exec .workCard u = .next v ∧
      v = { s with cardPend := false, trace := s.trace ++ [.notifyPresence] } ∧
      exec .workCard v = .refused (.notEnabled "WORK_CARD")

/-- R214 to R216: an abort sequence writes its flag and polls until the flag reads clear, at most 500
times; with every poll showing it set it logs the timeout and goes on. It writes nothing else, no error
field and no fault (what ABORT holds after is log 9). -/
def Obligations.AbortSequence : Prop :=
  ∀ (s : State) (k : AbortKind), ready s = true →
    let p := s.params
    let flag := if k = .cmd then p.abortCmd else p.abortData
    let poll (j : Nat) : Byte := (drawAt s j).setWidth 8
    let polled (n : Nat) (more : List Event) : Prop :=
      ∃ t, exec (.abortSeq k) s = .next t ∧
        t = { afterDraws n s with
          win := { s.win with abort := t.win.abort }
          trace := s.trace ++ [.w8 p.offAbort flag]
            ++ (List.range n).map (fun j => Event.r8 p.offAbort (poll j)) ++ more }
    (∀ n, 1 ≤ n → n ≤ 500 → (∀ j, j < n - 1 → poll j &&& flag ≠ 0) → poll (n - 1) &&& flag = 0 →
      polled n []) ∧
    ((∀ j, j < 500 → poll j &&& flag ≠ 0) → polled 500 [.log .abortTimeout])

/-- R218 to R222: a watchdog fire disarms the timer; with no Request that is all; with a Data phase it is
finish(Timeout); else the outstanding command, or the primary, takes Timeout and the request-finish work
is scheduled. -/
def Obligations.WatchdogFire : Prop :=
  ∀ s : State, s.fault = none → s.timer.isSome = true →
    let off := { s with timer := none }
    (s.req = none → exec .wdog s = .next off) ∧
    (s.req ≠ none → s.curData = true → exec .wdog s = exec (.finishData .timeout) off) ∧
    (∀ q r c, s.req = some q → s.curData = false →
      r = (match s.curCmd with | some x => x | none => Role.primary) →
      Request.command q r = some c →
      exec .wdog s = .next { off with
        req := some (Request.mapCommand q r (fun x => { x with error := .timeout }))
        finishPend := true })

/-- R228: a Request is queued for notification exactly once: only the request-finish work adds to the
queue, it adds the active Request, as it will be notified (R236; log 26), and detaches it, and nothing
else ends a Request. -/
def Obligations.OneCompletion : Prop :=
  ∀ (i : Instr) (s t : State), invOk s = true → i.topLevel = true → exec i s = .next t →
    (i = .workFinish ∧ ∃ q, s.req = some q ∧ t.req = none ∧
      t.notifyQ = s.notifyQ ++ [notified s q]) ∨
    (i = .notify ∧ t.req = s.req ∧ ∃ q, s.notifyQ = q :: t.notifyQ) ∨
    (t.notifyQ = s.notifyQ ∧ (s.req.isSome = true → t.req.isSome = true))

/-- R226, R227, R229, R21: a top-level step moves between phases only as the table lists; Completing is
left only by the request-finish work, to Idle; ResponseReceived is never held between steps. -/
def Obligations.PhaseMoves : Prop :=
  ∀ (i : Instr) (s t : State), invOk s = true → i.topLevel = true → exec i s = .next t →
    t.fault = none →
    phaseMove (phase s) (phase t) = true ∧
    (phase s = .completing → phase t ≠ .completing → i = .workFinish) ∧
    (phase s = .idle → phase t ≠ .idle → ∃ r, i = .submit r)

/-- R299, R223, R252: the bounded way out of an active Request, with no move of another agent between:
one or two watchdog fires schedule its completion, unless the stop command the first one issues cannot
be sent and faults; the request-finish work then queues the Request and the notifier delivers it. -/
def Obligations.EveryRequestEnds : Prop :=
  (∀ s : State, invOk s = true → ready s = true → s.req.isSome = true → s.finishPend = false →
    ∃ t, exec .wdog s = .next t ∧
      (t.fault = some .configOpcode ∨ t.fault = some .configShape ∨ t.finishPend = true ∨
        ∃ u, exec .wdog t = .next u ∧ u.fault = none ∧ u.finishPend = true)) ∧
  (∀ (s : State) (q : Request), invOk s = true → ready s = true → s.req = some q →
    s.finishPend = true →
    ∃ t, exec .workFinish s = .next t ∧ t.fault = none ∧ t.req = none ∧
      t.notifyQ = s.notifyQ ++ [notified s q]) ∧
  (∀ (s : State) (q : Request) (rest : List Request), s.fault = none → s.notifyQ = q :: rest →
    ∃ t, exec .notify s = .next t ∧ t.notifyQ = rest ∧ t.trace = s.trace ++ [.notifyComplete q])

/-- R298, R299, R236: in every weakly fair run, in which no fault is raised, every accepted Request is
notified exactly once, whatever the other agents and the environment do: the request-finish work ends it
with the fields its issuer supplied, and the notifications from the start of the claim to its own are
those that were queued before it, in order, and then it. -/
def Obligations.EventuallyNotified : Prop :=
  ∀ (states : Nat → State) (offers : Nat → Instr), isRun states offers → fairRun states offers →
    invOk (states 0) = true → ∀ (n : Nat) (q : Request), (states n).req = some q →
    ∃ (m k : Nat) (q' : Request), n ≤ m ∧ m < k ∧
      (∀ j, n ≤ j → j ≤ m → (states j).req.isSome = true) ∧
      offers m = .workFinish ∧ (states m).req = some q' ∧ (states (m + 1)).req = none ∧
      Request.issuerPart q' = Request.issuerPart q ∧
      offers k = .notify ∧
      deliveries (states n) (states (k + 1)) = (states n).notifyQ ++ [notified (states m) q']

/-! ## Issuer, platform, environment -/

/-- R230, R231, R233, R255: a submission while detached, while a Request is active or without a primary
command faults, in that order, and does nothing else. With no card the one access is the PRESENT read,
the primary command takes NoMedium, and the request-finish work is scheduled. What the PRESENT read shows
is log 8. Whether the issuer kept its duties is noted (R236; log 26). -/
def Obligations.SubmitTurnedAway : Prop :=
  ∀ (s : State) (r : Request), s.fault = none →
    let faulted (f : FaultReason) : Answer := .next { s with
      fault := some f, trace := s.trace ++ [.fault f] }
    (s.attached = false → exec (.submit r) s = faulted .notAttached) ∧
    (s.attached = true → s.req ≠ none → exec (.submit r) s = faulted .busyViolation) ∧
    (s.attached = true → s.req = none → r.cmd = none →
      exec (.submit r) s = faulted .configNoCommand) ∧
    (ready s = true → s.req = none → r.cmd ≠ none →
      presentShown s &&& bitMask s.params.presentCard = 0 →
      exec (.submit r) s = .next { afterDraws 1 s with
        req := some (Request.mapCommand (Request.withRoles r) .primary
          (fun x => { x with error := .noMedium }))
        dutyBroken := !Request.dutiesKept (Request.withRoles r)
        finishPend := true
        win := { s.win with present := presentShown s }
        trace := s.trace ++ [.r32 s.params.offPresent (presentShown s)] })

/-- R230, R125, R98: with a card the SBC command is issued first where there is one, else the primary;
a data-less Request without SBC launches its command at once. What the PRESENT read shows is log 8. Whether
the issuer kept its duties is noted (R236; log 26). -/
def Obligations.SubmitIssues : Prop :=
  ∀ (s : State) (r : Request) (c : Command), ready s = true → s.req = none → r.cmd = some c →
    presentShown s &&& bitMask s.params.presentCard ≠ 0 →
    let accepted := { afterDraws 1 s with
      req := some (Request.withRoles r)
      dutyBroken := !Request.dutiesKept (Request.withRoles r)
      win := { s.win with present := presentShown s }
      trace := s.trace ++ [.r32 s.params.offPresent (presentShown s)] }
    (r.sbc ≠ none → exec (.submit r) s = exec (.issue .sbc) accepted) ∧
    (r.sbc = none → exec (.submit r) s = exec (.issue .primary) accepted) ∧
    (∀ sh, r.sbc = none → r.data = none → c.opcode < 64 → Shape.ofCode c.shapeCode = some sh →
      let p := s.params
      let n := if 9000 < c.timeoutMs then (c.timeoutMs + 999) / 1000 + 1 else 10
      let b : Byte := p.cmdStartTag ||| BitVec.ofNat 8 c.opcode
      let a := if p.argSwap then bswap32 c.arg else c.arg
      exec (.submit r) s = .next { accepted with
        curCmd := some .primary
        timer := some n
        win := { accepted.win with cmd := b, arg := a, cmdCtrl := rspCtl p sh }
        trace := accepted.trace ++
          [.arm n, .w8 p.offCmd b, .w32 p.offArg a, .w8 p.offCmdCtrl (rspCtl p sh)] })

/-- R232, R80: the notifier delivers the oldest completed Request, with every field the engine wrote, and
writes only the queue and the trace. -/
def Obligations.Notify : Prop :=
  ∀ (s : State) (q : Request) (rest : List Request), s.fault = none → s.notifyQ = q :: rest →
    exec .notify s = .next { s with notifyQ := rest, trace := s.trace ++ [.notifyComplete q] }

/-- R234, R235, R280, R281, R283: attach gives every engine field its reset value and writes INT_ENABLE
only, with the trace going on (log 22); detach, from Idle with nothing pending, disables every source and releases the window. R244, R245,
R92: a power call records the mode and writes the supply byte, in any phase; Up and On write the same
byte. The three words POWER_OFF, POWER_UP and POWER_ON likewise (log 13). -/
def Obligations.PlatformSteps : Prop :=
  (∀ s : State, s.fault = none → s.attached = false → paramsOk s.params = true →
    exec .attach s = .next { s with
      attached := true, req := none, curCmd := none, curData := false, dataEarly := false
      cursor := { blocksLeft := 0, sgIdx := 0, sgOff := 0, accOff := 0 }
      timer := none, finishPend := false, cardPend := false, notifyQ := [], dutyBroken := false
      win := { s.win with intEnable := s.params.irqEnableMask }
      trace := s.trace ++ [.w32 s.params.offIntEnable s.params.irqEnableMask] }) ∧
  (∀ s : State, ready s = true → s.req = none → s.finishPend = false → s.cardPend = false →
    s.timer = none → s.notifyQ = [] →
    exec .detach s = .next { s with
      attached := false
      win := { s.win with intEnable := 0 }
      trace := s.trace ++ [.w32 s.params.offIntEnable 0] }) ∧
  (∀ s : State, ready s = true →
    let set (m : PowerMode) (v : Byte) : Answer := .next { s with
      power := m, win := { s.win with power := v }
      trace := s.trace ++ [.w8 s.params.offPower v] }
    let rail : Byte := 1#8 <<< s.params.pwrPrimary
    exec (.setPower .off) s = set .off 0 ∧ exec .powerOff s = set .off 0 ∧
    exec (.setPower .up) s = set .up rail ∧ exec .powerUp s = set .up rail ∧
    exec (.setPower .on) s = set .on rail ∧ exec .powerOn s = set .on rail)

/-- R240, R257: the environment raises any status bits; a bit already set stays; the interrupt line
follows. -/
def Obligations.EnvRaise : Prop :=
  ∀ (s : State) (m : Word), s.fault = none →
    let t := { s with win := { s.win with intStatus := s.win.intStatus ||| m } }
    exec (.envRaise m) s = .next t ∧
    (s.win.intStatus ||| m = s.win.intStatus → exec (.envRaise m) s = .next s) ∧
    irqLine t = (s.attached && (s.win.intStatus ||| m) &&& s.win.intEnable != 0)

/-- R241, R51: the environment sets or clears the card bit of PRESENT and nothing else; where reads show
the slot, by the parameter presentRead, the next read shows it (log 8). -/
def Obligations.EnvCard : Prop :=
  ∀ s : State, s.fault = none →
    exec (.envCard true) s = .next { s with
      win := { s.win with present := s.win.present ||| bitMask s.params.presentCard } } ∧
    exec (.envCard false) s = .next { s with
      win := { s.win with present := s.win.present &&& ~~~bitMask s.params.presentCard } } ∧
    (s.params.presentRead = .slot →
      (∃ t, exec (.envCard true) s = .next t ∧
        presentShown t &&& bitMask s.params.presentCard = bitMask s.params.presentCard) ∧
      ∃ t, exec (.envCard false) s = .next t ∧
        presentShown t &&& bitMask s.params.presentCard = 0)
end

