-- ==== Sys2Proof/Laws/State.lean ====
section
/-! SUPPORT. What every named update does to every field of the state, so that no proof unfolds a
record update: one lemma per update and field. -/

namespace Sys2Proof.Machine

variable (s : State)

/-! ### record -/

@[simp] theorem record_attached (e : Event) : (record e s).attached = s.attached := rfl
@[simp] theorem record_req (e : Event) : (record e s).req = s.req := rfl
@[simp] theorem record_curCmd (e : Event) : (record e s).curCmd = s.curCmd := rfl
@[simp] theorem record_curData (e : Event) : (record e s).curData = s.curData := rfl
@[simp] theorem record_dataEarly (e : Event) : (record e s).dataEarly = s.dataEarly := rfl
@[simp] theorem record_cursor (e : Event) : (record e s).cursor = s.cursor := rfl
@[simp] theorem record_timer (e : Event) : (record e s).timer = s.timer := rfl
@[simp] theorem record_finishPend (e : Event) : (record e s).finishPend = s.finishPend := rfl
@[simp] theorem record_cardPend (e : Event) : (record e s).cardPend = s.cardPend := rfl
@[simp] theorem record_notifyQ (e : Event) : (record e s).notifyQ = s.notifyQ := rfl
@[simp] theorem record_power (e : Event) : (record e s).power = s.power := rfl
@[simp] theorem record_fault (e : Event) : (record e s).fault = s.fault := rfl
@[simp] theorem record_trace (e : Event) : (record e s).trace = s.trace ++ [e] := rfl
@[simp] theorem record_win (e : Event) : (record e s).win = s.win := rfl
@[simp] theorem record_mem (e : Event) : (record e s).mem = s.mem := rfl
@[simp] theorem record_params (e : Event) : (record e s).params = s.params := rfl
@[simp] theorem record_answers (e : Event) : (record e s).answers = s.answers := rfl
@[simp] theorem record_draws (e : Event) : (record e s).draws = s.draws := rfl
@[simp] theorem record_agenda (e : Event) : (record e s).agenda = s.agenda := rfl
@[simp] theorem record_turns (e : Event) : (record e s).turns = s.turns := rfl
@[simp] theorem record_dutyBroken (e : Event) : (record e s).dutyBroken = s.dutyBroken := rfl
@[simp] theorem record_breaches (e : Event) : (record e s).breaches = s.breaches := rfl

/-! ### logEvent -/

@[simp] theorem logEvent_attached (k : LogKind) : (logEvent k s).attached = s.attached := rfl
@[simp] theorem logEvent_req (k : LogKind) : (logEvent k s).req = s.req := rfl
@[simp] theorem logEvent_curCmd (k : LogKind) : (logEvent k s).curCmd = s.curCmd := rfl
@[simp] theorem logEvent_curData (k : LogKind) : (logEvent k s).curData = s.curData := rfl
@[simp] theorem logEvent_dataEarly (k : LogKind) : (logEvent k s).dataEarly = s.dataEarly := rfl
@[simp] theorem logEvent_cursor (k : LogKind) : (logEvent k s).cursor = s.cursor := rfl
@[simp] theorem logEvent_timer (k : LogKind) : (logEvent k s).timer = s.timer := rfl
@[simp] theorem logEvent_finishPend (k : LogKind) : (logEvent k s).finishPend = s.finishPend := rfl
@[simp] theorem logEvent_cardPend (k : LogKind) : (logEvent k s).cardPend = s.cardPend := rfl
@[simp] theorem logEvent_notifyQ (k : LogKind) : (logEvent k s).notifyQ = s.notifyQ := rfl
@[simp] theorem logEvent_power (k : LogKind) : (logEvent k s).power = s.power := rfl
@[simp] theorem logEvent_fault (k : LogKind) : (logEvent k s).fault = s.fault := rfl
@[simp] theorem logEvent_trace (k : LogKind) : (logEvent k s).trace = s.trace ++ [.log k] := rfl
@[simp] theorem logEvent_win (k : LogKind) : (logEvent k s).win = s.win := rfl
@[simp] theorem logEvent_mem (k : LogKind) : (logEvent k s).mem = s.mem := rfl
@[simp] theorem logEvent_params (k : LogKind) : (logEvent k s).params = s.params := rfl
@[simp] theorem logEvent_answers (k : LogKind) : (logEvent k s).answers = s.answers := rfl
@[simp] theorem logEvent_draws (k : LogKind) : (logEvent k s).draws = s.draws := rfl
@[simp] theorem logEvent_agenda (k : LogKind) : (logEvent k s).agenda = s.agenda := rfl
@[simp] theorem logEvent_turns (k : LogKind) : (logEvent k s).turns = s.turns := rfl
@[simp] theorem logEvent_dutyBroken (k : LogKind) : (logEvent k s).dutyBroken = s.dutyBroken := rfl
@[simp] theorem logEvent_breaches (k : LogKind) : (logEvent k s).breaches = s.breaches := rfl

/-! ### armTimer -/

@[simp] theorem armTimer_attached (n : Nat) : (armTimer n s).attached = s.attached := rfl
@[simp] theorem armTimer_req (n : Nat) : (armTimer n s).req = s.req := rfl
@[simp] theorem armTimer_curCmd (n : Nat) : (armTimer n s).curCmd = s.curCmd := rfl
@[simp] theorem armTimer_curData (n : Nat) : (armTimer n s).curData = s.curData := rfl
@[simp] theorem armTimer_dataEarly (n : Nat) : (armTimer n s).dataEarly = s.dataEarly := rfl
@[simp] theorem armTimer_cursor (n : Nat) : (armTimer n s).cursor = s.cursor := rfl
@[simp] theorem armTimer_timer (n : Nat) : (armTimer n s).timer = some n := rfl
@[simp] theorem armTimer_finishPend (n : Nat) : (armTimer n s).finishPend = s.finishPend := rfl
@[simp] theorem armTimer_cardPend (n : Nat) : (armTimer n s).cardPend = s.cardPend := rfl
@[simp] theorem armTimer_notifyQ (n : Nat) : (armTimer n s).notifyQ = s.notifyQ := rfl
@[simp] theorem armTimer_power (n : Nat) : (armTimer n s).power = s.power := rfl
@[simp] theorem armTimer_fault (n : Nat) : (armTimer n s).fault = s.fault := rfl
@[simp] theorem armTimer_trace (n : Nat) : (armTimer n s).trace = s.trace ++ [.arm n] := rfl
@[simp] theorem armTimer_win (n : Nat) : (armTimer n s).win = s.win := rfl
@[simp] theorem armTimer_mem (n : Nat) : (armTimer n s).mem = s.mem := rfl
@[simp] theorem armTimer_params (n : Nat) : (armTimer n s).params = s.params := rfl
@[simp] theorem armTimer_answers (n : Nat) : (armTimer n s).answers = s.answers := rfl
@[simp] theorem armTimer_draws (n : Nat) : (armTimer n s).draws = s.draws := rfl
@[simp] theorem armTimer_agenda (n : Nat) : (armTimer n s).agenda = s.agenda := rfl
@[simp] theorem armTimer_turns (n : Nat) : (armTimer n s).turns = s.turns := rfl
@[simp] theorem armTimer_dutyBroken (n : Nat) : (armTimer n s).dutyBroken = s.dutyBroken := rfl
@[simp] theorem armTimer_breaches (n : Nat) : (armTimer n s).breaches = s.breaches := rfl

/-! ### cancelTimer -/

@[simp] theorem cancelTimer_attached : (cancelTimer s).attached = s.attached := rfl
@[simp] theorem cancelTimer_req : (cancelTimer s).req = s.req := rfl
@[simp] theorem cancelTimer_curCmd : (cancelTimer s).curCmd = s.curCmd := rfl
@[simp] theorem cancelTimer_curData : (cancelTimer s).curData = s.curData := rfl
@[simp] theorem cancelTimer_dataEarly : (cancelTimer s).dataEarly = s.dataEarly := rfl
@[simp] theorem cancelTimer_cursor : (cancelTimer s).cursor = s.cursor := rfl
@[simp] theorem cancelTimer_timer : (cancelTimer s).timer = none := rfl
@[simp] theorem cancelTimer_finishPend : (cancelTimer s).finishPend = s.finishPend := rfl
@[simp] theorem cancelTimer_cardPend : (cancelTimer s).cardPend = s.cardPend := rfl
@[simp] theorem cancelTimer_notifyQ : (cancelTimer s).notifyQ = s.notifyQ := rfl
@[simp] theorem cancelTimer_power : (cancelTimer s).power = s.power := rfl
@[simp] theorem cancelTimer_fault : (cancelTimer s).fault = s.fault := rfl
@[simp] theorem cancelTimer_trace : (cancelTimer s).trace = s.trace ++ [.cancel] := rfl
@[simp] theorem cancelTimer_win : (cancelTimer s).win = s.win := rfl
@[simp] theorem cancelTimer_mem : (cancelTimer s).mem = s.mem := rfl
@[simp] theorem cancelTimer_params : (cancelTimer s).params = s.params := rfl
@[simp] theorem cancelTimer_answers : (cancelTimer s).answers = s.answers := rfl
@[simp] theorem cancelTimer_draws : (cancelTimer s).draws = s.draws := rfl
@[simp] theorem cancelTimer_agenda : (cancelTimer s).agenda = s.agenda := rfl
@[simp] theorem cancelTimer_turns : (cancelTimer s).turns = s.turns := rfl
@[simp] theorem cancelTimer_dutyBroken : (cancelTimer s).dutyBroken = s.dutyBroken := rfl
@[simp] theorem cancelTimer_breaches : (cancelTimer s).breaches = s.breaches := rfl

/-! ### updCmd -/

@[simp] theorem updCmd_attached (r : Role) (f : Command → Command) :
    (updCmd r f s).attached = s.attached := rfl
@[simp] theorem updCmd_req (r : Role) (f : Command → Command) :
    (updCmd r f s).req = s.req.map (fun q => Request.mapCommand q r f) := rfl
@[simp] theorem updCmd_curCmd (r : Role) (f : Command → Command) :
    (updCmd r f s).curCmd = s.curCmd := rfl
@[simp] theorem updCmd_curData (r : Role) (f : Command → Command) :
    (updCmd r f s).curData = s.curData := rfl
@[simp] theorem updCmd_dataEarly (r : Role) (f : Command → Command) :
    (updCmd r f s).dataEarly = s.dataEarly := rfl
@[simp] theorem updCmd_cursor (r : Role) (f : Command → Command) :
    (updCmd r f s).cursor = s.cursor := rfl
@[simp] theorem updCmd_timer (r : Role) (f : Command → Command) : (updCmd r f s).timer = s.timer := rfl
@[simp] theorem updCmd_finishPend (r : Role) (f : Command → Command) :
    (updCmd r f s).finishPend = s.finishPend := rfl
@[simp] theorem updCmd_cardPend (r : Role) (f : Command → Command) :
    (updCmd r f s).cardPend = s.cardPend := rfl
@[simp] theorem updCmd_notifyQ (r : Role) (f : Command → Command) :
    (updCmd r f s).notifyQ = s.notifyQ := rfl
@[simp] theorem updCmd_power (r : Role) (f : Command → Command) : (updCmd r f s).power = s.power := rfl
@[simp] theorem updCmd_fault (r : Role) (f : Command → Command) : (updCmd r f s).fault = s.fault := rfl
@[simp] theorem updCmd_trace (r : Role) (f : Command → Command) : (updCmd r f s).trace = s.trace := rfl
@[simp] theorem updCmd_win (r : Role) (f : Command → Command) : (updCmd r f s).win = s.win := rfl
@[simp] theorem updCmd_mem (r : Role) (f : Command → Command) : (updCmd r f s).mem = s.mem := rfl
@[simp] theorem updCmd_params (r : Role) (f : Command → Command) :
    (updCmd r f s).params = s.params := rfl
@[simp] theorem updCmd_answers (r : Role) (f : Command → Command) :
    (updCmd r f s).answers = s.answers := rfl
@[simp] theorem updCmd_draws (r : Role) (f : Command → Command) : (updCmd r f s).draws = s.draws := rfl
@[simp] theorem updCmd_agenda (r : Role) (f : Command → Command) :
    (updCmd r f s).agenda = s.agenda := rfl
@[simp] theorem updCmd_turns (r : Role) (f : Command → Command) : (updCmd r f s).turns = s.turns := rfl
@[simp] theorem updCmd_dutyBroken (r : Role) (f : Command → Command) :
    (updCmd r f s).dutyBroken = s.dutyBroken := rfl
@[simp] theorem updCmd_breaches (r : Role) (f : Command → Command) :
    (updCmd r f s).breaches = s.breaches := rfl

/-! ### updData -/

@[simp] theorem updData_attached (f : Data → Data) : (updData f s).attached = s.attached := rfl
@[simp] theorem updData_req (f : Data → Data) :
    (updData f s).req = s.req.map (fun q => Request.mapData q f) := rfl
@[simp] theorem updData_curCmd (f : Data → Data) : (updData f s).curCmd = s.curCmd := rfl
@[simp] theorem updData_curData (f : Data → Data) : (updData f s).curData = s.curData := rfl
@[simp] theorem updData_dataEarly (f : Data → Data) : (updData f s).dataEarly = s.dataEarly := rfl
@[simp] theorem updData_cursor (f : Data → Data) : (updData f s).cursor = s.cursor := rfl
@[simp] theorem updData_timer (f : Data → Data) : (updData f s).timer = s.timer := rfl
@[simp] theorem updData_finishPend (f : Data → Data) : (updData f s).finishPend = s.finishPend := rfl
@[simp] theorem updData_cardPend (f : Data → Data) : (updData f s).cardPend = s.cardPend := rfl
@[simp] theorem updData_notifyQ (f : Data → Data) : (updData f s).notifyQ = s.notifyQ := rfl
@[simp] theorem updData_power (f : Data → Data) : (updData f s).power = s.power := rfl
@[simp] theorem updData_fault (f : Data → Data) : (updData f s).fault = s.fault := rfl
@[simp] theorem updData_trace (f : Data → Data) : (updData f s).trace = s.trace := rfl
@[simp] theorem updData_win (f : Data → Data) : (updData f s).win = s.win := rfl
@[simp] theorem updData_mem (f : Data → Data) : (updData f s).mem = s.mem := rfl
@[simp] theorem updData_params (f : Data → Data) : (updData f s).params = s.params := rfl
@[simp] theorem updData_answers (f : Data → Data) : (updData f s).answers = s.answers := rfl
@[simp] theorem updData_draws (f : Data → Data) : (updData f s).draws = s.draws := rfl
@[simp] theorem updData_agenda (f : Data → Data) : (updData f s).agenda = s.agenda := rfl
@[simp] theorem updData_turns (f : Data → Data) : (updData f s).turns = s.turns := rfl
@[simp] theorem updData_dutyBroken (f : Data → Data) : (updData f s).dutyBroken = s.dutyBroken := rfl
@[simp] theorem updData_breaches (f : Data → Data) : (updData f s).breaches = s.breaches := rfl

/-! ### memWrite -/

@[simp] theorem memWrite_attached (a : Nat) (v : Byte) : (memWrite a v s).attached = s.attached := rfl
@[simp] theorem memWrite_req (a : Nat) (v : Byte) : (memWrite a v s).req = s.req := rfl
@[simp] theorem memWrite_curCmd (a : Nat) (v : Byte) : (memWrite a v s).curCmd = s.curCmd := rfl
@[simp] theorem memWrite_curData (a : Nat) (v : Byte) : (memWrite a v s).curData = s.curData := rfl
@[simp] theorem memWrite_dataEarly (a : Nat) (v : Byte) :
    (memWrite a v s).dataEarly = s.dataEarly := rfl
@[simp] theorem memWrite_cursor (a : Nat) (v : Byte) : (memWrite a v s).cursor = s.cursor := rfl
@[simp] theorem memWrite_timer (a : Nat) (v : Byte) : (memWrite a v s).timer = s.timer := rfl
@[simp] theorem memWrite_finishPend (a : Nat) (v : Byte) :
    (memWrite a v s).finishPend = s.finishPend := rfl
@[simp] theorem memWrite_cardPend (a : Nat) (v : Byte) : (memWrite a v s).cardPend = s.cardPend := rfl
@[simp] theorem memWrite_notifyQ (a : Nat) (v : Byte) : (memWrite a v s).notifyQ = s.notifyQ := rfl
@[simp] theorem memWrite_power (a : Nat) (v : Byte) : (memWrite a v s).power = s.power := rfl
@[simp] theorem memWrite_fault (a : Nat) (v : Byte) : (memWrite a v s).fault = s.fault := rfl
@[simp] theorem memWrite_trace (a : Nat) (v : Byte) :
    (memWrite a v s).trace = s.trace ++ [.mw a v] := rfl
@[simp] theorem memWrite_win (a : Nat) (v : Byte) : (memWrite a v s).win = s.win := rfl
@[simp] theorem memWrite_mem (a : Nat) (v : Byte) :
    (memWrite a v s).mem = Memory.write s.mem a v := rfl
@[simp] theorem memWrite_params (a : Nat) (v : Byte) : (memWrite a v s).params = s.params := rfl
@[simp] theorem memWrite_answers (a : Nat) (v : Byte) : (memWrite a v s).answers = s.answers := rfl
@[simp] theorem memWrite_draws (a : Nat) (v : Byte) : (memWrite a v s).draws = s.draws := rfl
@[simp] theorem memWrite_agenda (a : Nat) (v : Byte) : (memWrite a v s).agenda = s.agenda := rfl
@[simp] theorem memWrite_turns (a : Nat) (v : Byte) : (memWrite a v s).turns = s.turns := rfl
@[simp] theorem memWrite_dutyBroken (a : Nat) (v : Byte) :
    (memWrite a v s).dutyBroken = s.dutyBroken := rfl
@[simp] theorem memWrite_breaches (a : Nat) (v : Byte) : (memWrite a v s).breaches = s.breaches := rfl

/-! ### memRead -/

@[simp] theorem memRead_attached (a : Nat) : ((memRead a s).2).attached = s.attached := rfl
@[simp] theorem memRead_req (a : Nat) : ((memRead a s).2).req = s.req := rfl
@[simp] theorem memRead_curCmd (a : Nat) : ((memRead a s).2).curCmd = s.curCmd := rfl
@[simp] theorem memRead_curData (a : Nat) : ((memRead a s).2).curData = s.curData := rfl
@[simp] theorem memRead_dataEarly (a : Nat) : ((memRead a s).2).dataEarly = s.dataEarly := rfl
@[simp] theorem memRead_cursor (a : Nat) : ((memRead a s).2).cursor = s.cursor := rfl
@[simp] theorem memRead_timer (a : Nat) : ((memRead a s).2).timer = s.timer := rfl
@[simp] theorem memRead_finishPend (a : Nat) : ((memRead a s).2).finishPend = s.finishPend := rfl
@[simp] theorem memRead_cardPend (a : Nat) : ((memRead a s).2).cardPend = s.cardPend := rfl
@[simp] theorem memRead_notifyQ (a : Nat) : ((memRead a s).2).notifyQ = s.notifyQ := rfl
@[simp] theorem memRead_power (a : Nat) : ((memRead a s).2).power = s.power := rfl
@[simp] theorem memRead_fault (a : Nat) : ((memRead a s).2).fault = s.fault := rfl
@[simp] theorem memRead_trace (a : Nat) :
    ((memRead a s).2).trace = s.trace ++ [.mr a (Memory.read s.mem a)] := rfl
@[simp] theorem memRead_win (a : Nat) : ((memRead a s).2).win = s.win := rfl
@[simp] theorem memRead_mem (a : Nat) : ((memRead a s).2).mem = s.mem := rfl
@[simp] theorem memRead_params (a : Nat) : ((memRead a s).2).params = s.params := rfl
@[simp] theorem memRead_answers (a : Nat) : ((memRead a s).2).answers = s.answers := rfl
@[simp] theorem memRead_draws (a : Nat) : ((memRead a s).2).draws = s.draws := rfl
@[simp] theorem memRead_agenda (a : Nat) : ((memRead a s).2).agenda = s.agenda := rfl
@[simp] theorem memRead_turns (a : Nat) : ((memRead a s).2).turns = s.turns := rfl
@[simp] theorem memRead_dutyBroken (a : Nat) : ((memRead a s).2).dutyBroken = s.dutyBroken := rfl
@[simp] theorem memRead_breaches (a : Nat) : ((memRead a s).2).breaches = s.breaches := rfl

/-! ### bumpOff -/

@[simp] theorem bumpOff_attached : (bumpOff s).attached = s.attached := rfl
@[simp] theorem bumpOff_req : (bumpOff s).req = s.req := rfl
@[simp] theorem bumpOff_curCmd : (bumpOff s).curCmd = s.curCmd := rfl
@[simp] theorem bumpOff_curData : (bumpOff s).curData = s.curData := rfl
@[simp] theorem bumpOff_dataEarly : (bumpOff s).dataEarly = s.dataEarly := rfl
@[simp] theorem bumpOff_cursor :
    (bumpOff s).cursor = { s.cursor with sgOff := s.cursor.sgOff + 1 } := rfl
@[simp] theorem bumpOff_timer : (bumpOff s).timer = s.timer := rfl
@[simp] theorem bumpOff_finishPend : (bumpOff s).finishPend = s.finishPend := rfl
@[simp] theorem bumpOff_cardPend : (bumpOff s).cardPend = s.cardPend := rfl
@[simp] theorem bumpOff_notifyQ : (bumpOff s).notifyQ = s.notifyQ := rfl
@[simp] theorem bumpOff_power : (bumpOff s).power = s.power := rfl
@[simp] theorem bumpOff_fault : (bumpOff s).fault = s.fault := rfl
@[simp] theorem bumpOff_trace : (bumpOff s).trace = s.trace := rfl
@[simp] theorem bumpOff_win : (bumpOff s).win = s.win := rfl
@[simp] theorem bumpOff_mem : (bumpOff s).mem = s.mem := rfl
@[simp] theorem bumpOff_params : (bumpOff s).params = s.params := rfl
@[simp] theorem bumpOff_answers : (bumpOff s).answers = s.answers := rfl
@[simp] theorem bumpOff_draws : (bumpOff s).draws = s.draws := rfl
@[simp] theorem bumpOff_agenda : (bumpOff s).agenda = s.agenda := rfl
@[simp] theorem bumpOff_turns : (bumpOff s).turns = s.turns := rfl
@[simp] theorem bumpOff_dutyBroken : (bumpOff s).dutyBroken = s.dutyBroken := rfl
@[simp] theorem bumpOff_breaches : (bumpOff s).breaches = s.breaches := rfl

/-! ### setAccOff -/

@[simp] theorem setAccOff_attached (k : Nat) : (setAccOff k s).attached = s.attached := rfl
@[simp] theorem setAccOff_req (k : Nat) : (setAccOff k s).req = s.req := rfl
@[simp] theorem setAccOff_curCmd (k : Nat) : (setAccOff k s).curCmd = s.curCmd := rfl
@[simp] theorem setAccOff_curData (k : Nat) : (setAccOff k s).curData = s.curData := rfl
@[simp] theorem setAccOff_dataEarly (k : Nat) : (setAccOff k s).dataEarly = s.dataEarly := rfl
@[simp] theorem setAccOff_cursor (k : Nat) :
    (setAccOff k s).cursor = { s.cursor with accOff := k } := rfl
@[simp] theorem setAccOff_timer (k : Nat) : (setAccOff k s).timer = s.timer := rfl
@[simp] theorem setAccOff_finishPend (k : Nat) : (setAccOff k s).finishPend = s.finishPend := rfl
@[simp] theorem setAccOff_cardPend (k : Nat) : (setAccOff k s).cardPend = s.cardPend := rfl
@[simp] theorem setAccOff_notifyQ (k : Nat) : (setAccOff k s).notifyQ = s.notifyQ := rfl
@[simp] theorem setAccOff_power (k : Nat) : (setAccOff k s).power = s.power := rfl
@[simp] theorem setAccOff_fault (k : Nat) : (setAccOff k s).fault = s.fault := rfl
@[simp] theorem setAccOff_trace (k : Nat) : (setAccOff k s).trace = s.trace := rfl
@[simp] theorem setAccOff_win (k : Nat) : (setAccOff k s).win = s.win := rfl
@[simp] theorem setAccOff_mem (k : Nat) : (setAccOff k s).mem = s.mem := rfl
@[simp] theorem setAccOff_params (k : Nat) : (setAccOff k s).params = s.params := rfl
@[simp] theorem setAccOff_answers (k : Nat) : (setAccOff k s).answers = s.answers := rfl
@[simp] theorem setAccOff_draws (k : Nat) : (setAccOff k s).draws = s.draws := rfl
@[simp] theorem setAccOff_agenda (k : Nat) : (setAccOff k s).agenda = s.agenda := rfl
@[simp] theorem setAccOff_turns (k : Nat) : (setAccOff k s).turns = s.turns := rfl
@[simp] theorem setAccOff_dutyBroken (k : Nat) : (setAccOff k s).dutyBroken = s.dutyBroken := rfl
@[simp] theorem setAccOff_breaches (k : Nat) : (setAccOff k s).breaches = s.breaches := rfl

/-! ### resetEngine -/

@[simp] theorem resetEngine_attached : (resetEngine s).attached = false := rfl
@[simp] theorem resetEngine_req : (resetEngine s).req = none := rfl
@[simp] theorem resetEngine_curCmd : (resetEngine s).curCmd = none := rfl
@[simp] theorem resetEngine_curData : (resetEngine s).curData = false := rfl
@[simp] theorem resetEngine_dataEarly : (resetEngine s).dataEarly = false := rfl
@[simp] theorem resetEngine_cursor : (resetEngine s).cursor = {} := rfl
@[simp] theorem resetEngine_timer : (resetEngine s).timer = none := rfl
@[simp] theorem resetEngine_finishPend : (resetEngine s).finishPend = false := rfl
@[simp] theorem resetEngine_cardPend : (resetEngine s).cardPend = false := rfl
@[simp] theorem resetEngine_notifyQ : (resetEngine s).notifyQ = [] := rfl
@[simp] theorem resetEngine_power : (resetEngine s).power = s.power := rfl
@[simp] theorem resetEngine_fault : (resetEngine s).fault = s.fault := rfl
@[simp] theorem resetEngine_trace : (resetEngine s).trace = s.trace := rfl
@[simp] theorem resetEngine_win : (resetEngine s).win = s.win := rfl
@[simp] theorem resetEngine_mem : (resetEngine s).mem = s.mem := rfl
@[simp] theorem resetEngine_params : (resetEngine s).params = s.params := rfl
@[simp] theorem resetEngine_answers : (resetEngine s).answers = s.answers := rfl
@[simp] theorem resetEngine_draws : (resetEngine s).draws = s.draws := rfl
@[simp] theorem resetEngine_agenda : (resetEngine s).agenda = s.agenda := rfl
@[simp] theorem resetEngine_turns : (resetEngine s).turns = s.turns := rfl
@[simp] theorem resetEngine_dutyBroken : (resetEngine s).dutyBroken = false := rfl
@[simp] theorem resetEngine_breaches : (resetEngine s).breaches = s.breaches := rfl

/-! ### detachRequest -/

@[simp] theorem detachRequest_attached (q : Request) : (detachRequest q s).attached = s.attached := rfl
@[simp] theorem detachRequest_req (q : Request) : (detachRequest q s).req = none := rfl
@[simp] theorem detachRequest_curCmd (q : Request) : (detachRequest q s).curCmd = none := rfl
@[simp] theorem detachRequest_curData (q : Request) : (detachRequest q s).curData = false := rfl
@[simp] theorem detachRequest_dataEarly (q : Request) : (detachRequest q s).dataEarly = false := rfl
@[simp] theorem detachRequest_cursor (q : Request) : (detachRequest q s).cursor = {} := rfl
@[simp] theorem detachRequest_timer (q : Request) : (detachRequest q s).timer = s.timer := rfl
@[simp] theorem detachRequest_finishPend (q : Request) :
    (detachRequest q s).finishPend = s.finishPend := rfl
@[simp] theorem detachRequest_cardPend (q : Request) : (detachRequest q s).cardPend = s.cardPend := rfl
@[simp] theorem detachRequest_notifyQ (q : Request) :
    (detachRequest q s).notifyQ = s.notifyQ ++ [notified s q] := rfl
@[simp] theorem detachRequest_power (q : Request) : (detachRequest q s).power = s.power := rfl
@[simp] theorem detachRequest_fault (q : Request) : (detachRequest q s).fault = s.fault := rfl
@[simp] theorem detachRequest_trace (q : Request) : (detachRequest q s).trace = s.trace := rfl
@[simp] theorem detachRequest_win (q : Request) : (detachRequest q s).win = s.win := rfl
@[simp] theorem detachRequest_mem (q : Request) : (detachRequest q s).mem = s.mem := rfl
@[simp] theorem detachRequest_params (q : Request) : (detachRequest q s).params = s.params := rfl
@[simp] theorem detachRequest_answers (q : Request) : (detachRequest q s).answers = s.answers := rfl
@[simp] theorem detachRequest_draws (q : Request) : (detachRequest q s).draws = s.draws := rfl
@[simp] theorem detachRequest_agenda (q : Request) : (detachRequest q s).agenda = s.agenda := rfl
@[simp] theorem detachRequest_turns (q : Request) : (detachRequest q s).turns = s.turns := rfl
@[simp] theorem detachRequest_dutyBroken (q : Request) : (detachRequest q s).dutyBroken = false := rfl
@[simp] theorem detachRequest_breaches (q : Request) :
    (detachRequest q s).breaches = if s.dutyBroken then s.breaches + 1 else s.breaches := rfl

/-! ### envRaise -/

@[simp] theorem envRaise_attached (m : Word) : (envRaise m s).attached = s.attached := rfl
@[simp] theorem envRaise_req (m : Word) : (envRaise m s).req = s.req := rfl
@[simp] theorem envRaise_curCmd (m : Word) : (envRaise m s).curCmd = s.curCmd := rfl
@[simp] theorem envRaise_curData (m : Word) : (envRaise m s).curData = s.curData := rfl
@[simp] theorem envRaise_dataEarly (m : Word) : (envRaise m s).dataEarly = s.dataEarly := rfl
@[simp] theorem envRaise_cursor (m : Word) : (envRaise m s).cursor = s.cursor := rfl
@[simp] theorem envRaise_timer (m : Word) : (envRaise m s).timer = s.timer := rfl
@[simp] theorem envRaise_finishPend (m : Word) : (envRaise m s).finishPend = s.finishPend := rfl
@[simp] theorem envRaise_cardPend (m : Word) : (envRaise m s).cardPend = s.cardPend := rfl
@[simp] theorem envRaise_notifyQ (m : Word) : (envRaise m s).notifyQ = s.notifyQ := rfl
@[simp] theorem envRaise_power (m : Word) : (envRaise m s).power = s.power := rfl
@[simp] theorem envRaise_fault (m : Word) : (envRaise m s).fault = s.fault := rfl
@[simp] theorem envRaise_trace (m : Word) : (envRaise m s).trace = s.trace := rfl
@[simp] theorem envRaise_win (m : Word) :
    (envRaise m s).win = { s.win with intStatus := s.win.intStatus ||| m } := rfl
@[simp] theorem envRaise_mem (m : Word) : (envRaise m s).mem = s.mem := rfl
@[simp] theorem envRaise_params (m : Word) : (envRaise m s).params = s.params := rfl
@[simp] theorem envRaise_answers (m : Word) : (envRaise m s).answers = s.answers := rfl
@[simp] theorem envRaise_draws (m : Word) : (envRaise m s).draws = s.draws := rfl
@[simp] theorem envRaise_agenda (m : Word) : (envRaise m s).agenda = s.agenda := rfl
@[simp] theorem envRaise_turns (m : Word) : (envRaise m s).turns = s.turns := rfl
@[simp] theorem envRaise_dutyBroken (m : Word) : (envRaise m s).dutyBroken = s.dutyBroken := rfl
@[simp] theorem envRaise_breaches (m : Word) : (envRaise m s).breaches = s.breaches := rfl

/-! ### envCard -/

@[simp] theorem envCard_attached (b : Bool) : (envCard b s).attached = s.attached := rfl
@[simp] theorem envCard_req (b : Bool) : (envCard b s).req = s.req := rfl
@[simp] theorem envCard_curCmd (b : Bool) : (envCard b s).curCmd = s.curCmd := rfl
@[simp] theorem envCard_curData (b : Bool) : (envCard b s).curData = s.curData := rfl
@[simp] theorem envCard_dataEarly (b : Bool) : (envCard b s).dataEarly = s.dataEarly := rfl
@[simp] theorem envCard_cursor (b : Bool) : (envCard b s).cursor = s.cursor := rfl
@[simp] theorem envCard_timer (b : Bool) : (envCard b s).timer = s.timer := rfl
@[simp] theorem envCard_finishPend (b : Bool) : (envCard b s).finishPend = s.finishPend := rfl
@[simp] theorem envCard_cardPend (b : Bool) : (envCard b s).cardPend = s.cardPend := rfl
@[simp] theorem envCard_notifyQ (b : Bool) : (envCard b s).notifyQ = s.notifyQ := rfl
@[simp] theorem envCard_power (b : Bool) : (envCard b s).power = s.power := rfl
@[simp] theorem envCard_fault (b : Bool) : (envCard b s).fault = s.fault := rfl
@[simp] theorem envCard_trace (b : Bool) : (envCard b s).trace = s.trace := rfl
@[simp] theorem envCard_mem (b : Bool) : (envCard b s).mem = s.mem := rfl
@[simp] theorem envCard_params (b : Bool) : (envCard b s).params = s.params := rfl
@[simp] theorem envCard_answers (b : Bool) : (envCard b s).answers = s.answers := rfl
@[simp] theorem envCard_draws (b : Bool) : (envCard b s).draws = s.draws := rfl
@[simp] theorem envCard_agenda (b : Bool) : (envCard b s).agenda = s.agenda := rfl
@[simp] theorem envCard_turns (b : Bool) : (envCard b s).turns = s.turns := rfl
@[simp] theorem envCard_dutyBroken (b : Bool) : (envCard b s).dutyBroken = s.dutyBroken := rfl
@[simp] theorem envCard_breaches (b : Bool) : (envCard b s).breaches = s.breaches := rfl

/-! ### scheduleFinish -/

@[simp] theorem scheduleFinish_attached : (scheduleWork .finish s).attached = s.attached := rfl
@[simp] theorem scheduleFinish_req : (scheduleWork .finish s).req = s.req := rfl
@[simp] theorem scheduleFinish_curCmd : (scheduleWork .finish s).curCmd = s.curCmd := rfl
@[simp] theorem scheduleFinish_curData : (scheduleWork .finish s).curData = s.curData := rfl
@[simp] theorem scheduleFinish_dataEarly : (scheduleWork .finish s).dataEarly = s.dataEarly := rfl
@[simp] theorem scheduleFinish_cursor : (scheduleWork .finish s).cursor = s.cursor := rfl
@[simp] theorem scheduleFinish_timer : (scheduleWork .finish s).timer = s.timer := rfl
@[simp] theorem scheduleFinish_finishPend : (scheduleWork .finish s).finishPend = true := rfl
@[simp] theorem scheduleFinish_cardPend : (scheduleWork .finish s).cardPend = s.cardPend := rfl
@[simp] theorem scheduleFinish_notifyQ : (scheduleWork .finish s).notifyQ = s.notifyQ := rfl
@[simp] theorem scheduleFinish_power : (scheduleWork .finish s).power = s.power := rfl
@[simp] theorem scheduleFinish_fault : (scheduleWork .finish s).fault = s.fault := rfl
@[simp] theorem scheduleFinish_trace : (scheduleWork .finish s).trace = s.trace := rfl
@[simp] theorem scheduleFinish_win : (scheduleWork .finish s).win = s.win := rfl
@[simp] theorem scheduleFinish_mem : (scheduleWork .finish s).mem = s.mem := rfl
@[simp] theorem scheduleFinish_params : (scheduleWork .finish s).params = s.params := rfl
@[simp] theorem scheduleFinish_answers : (scheduleWork .finish s).answers = s.answers := rfl
@[simp] theorem scheduleFinish_draws : (scheduleWork .finish s).draws = s.draws := rfl
@[simp] theorem scheduleFinish_agenda : (scheduleWork .finish s).agenda = s.agenda := rfl
@[simp] theorem scheduleFinish_turns : (scheduleWork .finish s).turns = s.turns := rfl
@[simp] theorem scheduleFinish_dutyBroken : (scheduleWork .finish s).dutyBroken = s.dutyBroken := rfl
@[simp] theorem scheduleFinish_breaches : (scheduleWork .finish s).breaches = s.breaches := rfl

/-! ### scheduleCard -/

@[simp] theorem scheduleCard_attached : (scheduleWork .card s).attached = s.attached := rfl
@[simp] theorem scheduleCard_req : (scheduleWork .card s).req = s.req := rfl
@[simp] theorem scheduleCard_curCmd : (scheduleWork .card s).curCmd = s.curCmd := rfl
@[simp] theorem scheduleCard_curData : (scheduleWork .card s).curData = s.curData := rfl
@[simp] theorem scheduleCard_dataEarly : (scheduleWork .card s).dataEarly = s.dataEarly := rfl
@[simp] theorem scheduleCard_cursor : (scheduleWork .card s).cursor = s.cursor := rfl
@[simp] theorem scheduleCard_timer : (scheduleWork .card s).timer = s.timer := rfl
@[simp] theorem scheduleCard_finishPend : (scheduleWork .card s).finishPend = s.finishPend := rfl
@[simp] theorem scheduleCard_cardPend : (scheduleWork .card s).cardPend = true := rfl
@[simp] theorem scheduleCard_notifyQ : (scheduleWork .card s).notifyQ = s.notifyQ := rfl
@[simp] theorem scheduleCard_power : (scheduleWork .card s).power = s.power := rfl
@[simp] theorem scheduleCard_fault : (scheduleWork .card s).fault = s.fault := rfl
@[simp] theorem scheduleCard_trace : (scheduleWork .card s).trace = s.trace := rfl
@[simp] theorem scheduleCard_win : (scheduleWork .card s).win = s.win := rfl
@[simp] theorem scheduleCard_mem : (scheduleWork .card s).mem = s.mem := rfl
@[simp] theorem scheduleCard_params : (scheduleWork .card s).params = s.params := rfl
@[simp] theorem scheduleCard_answers : (scheduleWork .card s).answers = s.answers := rfl
@[simp] theorem scheduleCard_draws : (scheduleWork .card s).draws = s.draws := rfl
@[simp] theorem scheduleCard_agenda : (scheduleWork .card s).agenda = s.agenda := rfl
@[simp] theorem scheduleCard_turns : (scheduleWork .card s).turns = s.turns := rfl
@[simp] theorem scheduleCard_dutyBroken : (scheduleWork .card s).dutyBroken = s.dutyBroken := rfl
@[simp] theorem scheduleCard_breaches : (scheduleWork .card s).breaches = s.breaches := rfl

/-! ### placeEntry -/

@[simp] theorem placeEntry_attached (e : Entry) : (placeEntry e s).attached = s.attached := rfl
@[simp] theorem placeEntry_req (e : Entry) : (placeEntry e s).req = s.req := rfl
@[simp] theorem placeEntry_curCmd (e : Entry) : (placeEntry e s).curCmd = s.curCmd := rfl
@[simp] theorem placeEntry_curData (e : Entry) : (placeEntry e s).curData = s.curData := rfl
@[simp] theorem placeEntry_dataEarly (e : Entry) : (placeEntry e s).dataEarly = s.dataEarly := rfl
@[simp] theorem placeEntry_cursor (e : Entry) : (placeEntry e s).cursor = s.cursor := rfl
@[simp] theorem placeEntry_timer (e : Entry) : (placeEntry e s).timer = s.timer := rfl
@[simp] theorem placeEntry_finishPend (e : Entry) : (placeEntry e s).finishPend = s.finishPend := rfl
@[simp] theorem placeEntry_cardPend (e : Entry) : (placeEntry e s).cardPend = s.cardPend := rfl
@[simp] theorem placeEntry_notifyQ (e : Entry) : (placeEntry e s).notifyQ = s.notifyQ := rfl
@[simp] theorem placeEntry_power (e : Entry) : (placeEntry e s).power = s.power := rfl
@[simp] theorem placeEntry_fault (e : Entry) : (placeEntry e s).fault = s.fault := rfl
@[simp] theorem placeEntry_trace (e : Entry) : (placeEntry e s).trace = s.trace := rfl
@[simp] theorem placeEntry_win (e : Entry) : (placeEntry e s).win = s.win := rfl
@[simp] theorem placeEntry_mem (e : Entry) : (placeEntry e s).mem = s.mem := rfl
@[simp] theorem placeEntry_params (e : Entry) : (placeEntry e s).params = s.params := rfl
@[simp] theorem placeEntry_answers (e : Entry) : (placeEntry e s).answers = s.answers := rfl
@[simp] theorem placeEntry_draws (e : Entry) : (placeEntry e s).draws = s.draws := rfl
@[simp] theorem placeEntry_agenda (e : Entry) : (placeEntry e s).agenda = e :: s.agenda := rfl
@[simp] theorem placeEntry_turns (e : Entry) : (placeEntry e s).turns = s.turns := rfl
@[simp] theorem placeEntry_dutyBroken (e : Entry) : (placeEntry e s).dutyBroken = s.dutyBroken := rfl
@[simp] theorem placeEntry_breaches (e : Entry) : (placeEntry e s).breaches = s.breaches := rfl

/-! ### draw -/

@[simp] theorem draw_attached : (draw s).2.attached = s.attached := by unfold draw; split <;> rfl
@[simp] theorem draw_req : (draw s).2.req = s.req := by unfold draw; split <;> rfl
@[simp] theorem draw_curCmd : (draw s).2.curCmd = s.curCmd := by unfold draw; split <;> rfl
@[simp] theorem draw_curData : (draw s).2.curData = s.curData := by unfold draw; split <;> rfl
@[simp] theorem draw_dataEarly : (draw s).2.dataEarly = s.dataEarly := by unfold draw; split <;> rfl
@[simp] theorem draw_cursor : (draw s).2.cursor = s.cursor := by unfold draw; split <;> rfl
@[simp] theorem draw_timer : (draw s).2.timer = s.timer := by unfold draw; split <;> rfl
@[simp] theorem draw_finishPend : (draw s).2.finishPend = s.finishPend := by unfold draw; split <;> rfl
@[simp] theorem draw_cardPend : (draw s).2.cardPend = s.cardPend := by unfold draw; split <;> rfl
@[simp] theorem draw_notifyQ : (draw s).2.notifyQ = s.notifyQ := by unfold draw; split <;> rfl
@[simp] theorem draw_power : (draw s).2.power = s.power := by unfold draw; split <;> rfl
@[simp] theorem draw_fault : (draw s).2.fault = s.fault := by unfold draw; split <;> rfl
@[simp] theorem draw_trace : (draw s).2.trace = s.trace := by unfold draw; split <;> rfl
@[simp] theorem draw_win : (draw s).2.win = s.win := by unfold draw; split <;> rfl
@[simp] theorem draw_mem : (draw s).2.mem = s.mem := by unfold draw; split <;> rfl
@[simp] theorem draw_params : (draw s).2.params = s.params := by unfold draw; split <;> rfl
@[simp] theorem draw_agenda : (draw s).2.agenda = s.agenda := by unfold draw; split <;> rfl
@[simp] theorem draw_turns : (draw s).2.turns = s.turns := by unfold draw; split <;> rfl
@[simp] theorem draw_dutyBroken : (draw s).2.dutyBroken = s.dutyBroken := by unfold draw; split <;> rfl
@[simp] theorem draw_breaches : (draw s).2.breaches = s.breaches := by unfold draw; split <;> rfl

/-! ### show8, show32: only the draw stream and the shown register move -/

@[simp] theorem show8_attached (r : Reg) : (show8 r s).2.attached = s.attached := by cases r <;> simp [show8]
@[simp] theorem show32_attached (r : Reg) : (show32 r s).2.attached = s.attached := by cases r <;> simp [show32]
@[simp] theorem show8_req (r : Reg) : (show8 r s).2.req = s.req := by cases r <;> simp [show8]
@[simp] theorem show32_req (r : Reg) : (show32 r s).2.req = s.req := by cases r <;> simp [show32]
@[simp] theorem show8_curCmd (r : Reg) : (show8 r s).2.curCmd = s.curCmd := by cases r <;> simp [show8]
@[simp] theorem show32_curCmd (r : Reg) : (show32 r s).2.curCmd = s.curCmd := by cases r <;> simp [show32]
@[simp] theorem show8_curData (r : Reg) : (show8 r s).2.curData = s.curData := by cases r <;> simp [show8]
@[simp] theorem show32_curData (r : Reg) : (show32 r s).2.curData = s.curData := by cases r <;> simp [show32]
@[simp] theorem show8_dataEarly (r : Reg) : (show8 r s).2.dataEarly = s.dataEarly := by cases r <;> simp [show8]
@[simp] theorem show32_dataEarly (r : Reg) : (show32 r s).2.dataEarly = s.dataEarly := by cases r <;> simp [show32]
@[simp] theorem show8_cursor (r : Reg) : (show8 r s).2.cursor = s.cursor := by cases r <;> simp [show8]
@[simp] theorem show32_cursor (r : Reg) : (show32 r s).2.cursor = s.cursor := by cases r <;> simp [show32]
@[simp] theorem show8_timer (r : Reg) : (show8 r s).2.timer = s.timer := by cases r <;> simp [show8]
@[simp] theorem show32_timer (r : Reg) : (show32 r s).2.timer = s.timer := by cases r <;> simp [show32]
@[simp] theorem show8_finishPend (r : Reg) : (show8 r s).2.finishPend = s.finishPend := by cases r <;> simp [show8]
@[simp] theorem show32_finishPend (r : Reg) : (show32 r s).2.finishPend = s.finishPend := by cases r <;> simp [show32]
@[simp] theorem show8_cardPend (r : Reg) : (show8 r s).2.cardPend = s.cardPend := by cases r <;> simp [show8]
@[simp] theorem show32_cardPend (r : Reg) : (show32 r s).2.cardPend = s.cardPend := by cases r <;> simp [show32]
@[simp] theorem show8_notifyQ (r : Reg) : (show8 r s).2.notifyQ = s.notifyQ := by cases r <;> simp [show8]
@[simp] theorem show32_notifyQ (r : Reg) : (show32 r s).2.notifyQ = s.notifyQ := by cases r <;> simp [show32]
@[simp] theorem show8_power (r : Reg) : (show8 r s).2.power = s.power := by cases r <;> simp [show8]
@[simp] theorem show32_power (r : Reg) : (show32 r s).2.power = s.power := by cases r <;> simp [show32]
@[simp] theorem show8_fault (r : Reg) : (show8 r s).2.fault = s.fault := by cases r <;> simp [show8]
@[simp] theorem show32_fault (r : Reg) : (show32 r s).2.fault = s.fault := by cases r <;> simp [show32]
@[simp] theorem show8_trace (r : Reg) : (show8 r s).2.trace = s.trace := by cases r <;> simp [show8]
@[simp] theorem show32_trace (r : Reg) : (show32 r s).2.trace = s.trace := by cases r <;> simp [show32]
@[simp] theorem show8_mem (r : Reg) : (show8 r s).2.mem = s.mem := by cases r <;> simp [show8]
@[simp] theorem show32_mem (r : Reg) : (show32 r s).2.mem = s.mem := by cases r <;> simp [show32]
@[simp] theorem show8_params (r : Reg) : (show8 r s).2.params = s.params := by cases r <;> simp [show8]
@[simp] theorem show32_params (r : Reg) : (show32 r s).2.params = s.params := by cases r <;> simp [show32]
@[simp] theorem show8_agenda (r : Reg) : (show8 r s).2.agenda = s.agenda := by cases r <;> simp [show8]
@[simp] theorem show32_agenda (r : Reg) : (show32 r s).2.agenda = s.agenda := by cases r <;> simp [show32]
@[simp] theorem show8_turns (r : Reg) : (show8 r s).2.turns = s.turns := by cases r <;> simp [show8]
@[simp] theorem show32_turns (r : Reg) : (show32 r s).2.turns = s.turns := by cases r <;> simp [show32]
@[simp] theorem show8_dutyBroken (r : Reg) : (show8 r s).2.dutyBroken = s.dutyBroken := by cases r <;> simp [show8]
@[simp] theorem show32_dutyBroken (r : Reg) : (show32 r s).2.dutyBroken = s.dutyBroken := by cases r <;> simp [show32]
@[simp] theorem show8_breaches (r : Reg) : (show8 r s).2.breaches = s.breaches := by cases r <;> simp [show8]
@[simp] theorem show32_breaches (r : Reg) : (show32 r s).2.breaches = s.breaches := by cases r <;> simp [show32]

@[simp] theorem memRead_fst (a : Nat) : (memRead a s).1 = Memory.read s.mem a := rfl

/-- D(s) and cmdOf(s, r) read only the active Request. -/
theorem dataOf_congr {s t : State} (h : t.req = s.req) : dataOf t = dataOf s := by simp [dataOf, h]

theorem cmdOf_congr {s t : State} (h : t.req = s.req) (r : Role) : cmdOf t r = cmdOf s r := by
  simp [cmdOf, h]

end Sys2Proof.Machine
end

