-- ==== Sys2Proof/Laws/Memory.lean ====
section
/-! SUPPORT. The laws of issuer memory: a read after a write, and that every write keeps the
canonical form (spec/20_memory.md R63, R66). -/

namespace Sys2Proof.Machine

theorem Memory.wf_cons {a : Nat} {b : Byte} {m : Memory} :
    Memory.wf ((a, b) :: m) = true ↔
      b ≠ Memory.unlisted ∧ (∀ c ∈ m, a < c.1) ∧ Memory.wf m = true := by
  simp [Memory.wf, and_assoc]

/-- Every address a write lists was listed before or is the one written. -/
theorem Memory.mem_write {m : Memory} {x : Nat} {v : Byte} {c : Host.Cell}
    (h : c ∈ Memory.write m x v) : c ∈ m ∨ c.1 = x := by
  induction m with
  | nil =>
    simp only [Memory.write] at h
    split at h
    · simp at h
    · right; simp at h; simp [h]
  | cons d m ih =>
    obtain ⟨a, b⟩ := d
    simp only [Memory.write] at h
    split at h
    · split at h
      · exact .inl h
      · rcases List.mem_cons.1 h with h | h
        · right; simp [h]
        · exact .inl h
    · split at h
      · split at h
        · exact .inl (List.mem_cons_of_mem _ h)
        · rcases List.mem_cons.1 h with h | h
          · right; simp [h]
          · exact .inl (List.mem_cons_of_mem _ h)
      · rcases List.mem_cons.1 h with h | h
        · exact .inl (by simp [h])
        · rcases ih h with h | h
          · exact .inl (List.mem_cons_of_mem _ h)
          · exact .inr h

/-- A write keeps the canonical form. -/
theorem Memory.write_wf {m : Memory} (h : Memory.wf m = true) (x : Nat) (v : Byte) :
    Memory.wf (Memory.write m x v) = true := by
  induction m with
  | nil =>
    simp only [Memory.write]
    split
    · rfl
    · rename_i hv
      simp [Memory.wf, hv]
  | cons d m ih =>
    obtain ⟨a, b⟩ := d
    obtain ⟨hb, ha, hm⟩ := Memory.wf_cons.1 h
    simp only [Memory.write]
    split
    · rename_i hx
      split
      · exact h
      · rename_i hv
        refine Memory.wf_cons.2 ⟨hv, ?_, h⟩
        intro c hc
        rcases List.mem_cons.1 hc with rfl | hc
        · exact hx
        · exact Nat.lt_trans hx (ha c hc)
    · split
      · rename_i hx
        split
        · exact hm
        · rename_i hv
          exact Memory.wf_cons.2 ⟨hv, fun c hc => hx ▸ ha c hc, hm⟩
      · rename_i h1 h2
        refine Memory.wf_cons.2 ⟨hb, ?_, ih hm⟩
        intro c hc
        rcases Memory.mem_write hc with hc | hc
        · exact ha c hc
        · omega

/-- An address below every listed one reads as unlisted. -/
theorem Memory.read_below {m : Memory} {x : Nat} (h : ∀ c ∈ m, x < c.1) :
    Memory.read m x = Memory.unlisted := by
  induction m with
  | nil => rfl
  | cons d m ih =>
    obtain ⟨a, b⟩ := d
    have hx : x < a := h (a, b) (List.mem_cons_self ..)
    simp only [Memory.read]
    rw [if_neg (by omega)]
    exact ih (fun c hc => h c (List.mem_cons_of_mem _ hc))

/-- A read after a write to the same address gives the value written. -/
theorem Memory.read_write_self {m : Memory} (h : Memory.wf m = true) (x : Nat) (v : Byte) :
    Memory.read (Memory.write m x v) x = v := by
  induction m with
  | nil =>
    simp only [Memory.write]
    split
    · rename_i hv; simp [Memory.read, hv]
    · simp [Memory.read]
  | cons d m ih =>
    obtain ⟨a, b⟩ := d
    obtain ⟨hb, ha, hm⟩ := Memory.wf_cons.1 h
    simp only [Memory.write]
    split
    · rename_i hx
      split
      · rename_i hv
        subst hv
        apply Memory.read_below
        intro c hc
        rcases List.mem_cons.1 hc with rfl | hc
        · exact hx
        · exact Nat.lt_trans hx (ha c hc)
      · simp [Memory.read]
    · split
      · rename_i hx
        split
        · rename_i hv
          subst hv
          exact Memory.read_below (fun c hc => hx ▸ ha c hc)
        · simp [Memory.read]
      · rename_i h1 h2
        simp only [Memory.read]
        rw [if_neg h2]
        exact ih hm

/-- A write leaves every other address alone. -/
theorem Memory.read_write_other {m : Memory} {x y : Nat} (v : Byte) (hxy : y ≠ x) :
    Memory.read (Memory.write m x v) y = Memory.read m y := by
  induction m with
  | nil =>
    simp only [Memory.write]
    split
    · rfl
    · simp [Memory.read, hxy]
  | cons d m ih =>
    obtain ⟨a, b⟩ := d
    simp only [Memory.write]
    split
    · split
      · rfl
      · simp [Memory.read, hxy]
    · split
      · rename_i hx
        subst hx
        split
        · simp [Memory.read, hxy]
        · simp [Memory.read, hxy]
      · simp only [Memory.read]
        split
        · rfl
        · exact ih

/-- A one-byte store inside the address space keeps the memory invariant. -/
theorem memWrite_ok {s : State} (h : memoryOk s = true) {a : Nat}
    (ha : a < 2 ^ s.params.memAddrWidth) (v : Byte) : memoryOk (memWrite a v s) = true := by
  simp only [memoryOk, Bool.and_eq_true, List.all_eq_true, decide_eq_true_eq] at h ⊢
  refine ⟨Memory.write_wf h.1 a v, ?_⟩
  intro c hc
  rcases Memory.mem_write hc with hc | hc
  · exact h.2 c hc
  · exact hc ▸ ha

theorem reset_memoryOk : memoryOk State.reset = true := by decide

end Sys2Proof.Machine
end

