-- ==== Sys2Proof/Laws/Window.lean ====
section
/-! SUPPORT. What the accessors of the register window do (spec/40_register_interface.md): the one
way each can go on, and that an access by name passes the window check wherever the parameters are
in order (spec/20_memory.md R62). -/

namespace Sys2Proof.Machine

/-! ### Sequencing -/

@[simp] theorem Res.bind_ok {α β : Type} (a : α) (s : State) (f : α → State → Res β) :
    (Res.ok a s).bind f = f a s := rfl

@[simp] theorem Res.bind_raised {α β : Type} (s : State) (f : α → State → Res β) :
    (Res.raised s : Res α).bind f = .raised s := rfl

@[simp] theorem Res.bind_stuck {α β : Type} (r : Refusal) (f : α → State → Res β) :
    (Res.stuck r : Res α).bind f = .stuck r := rfl

@[simp] theorem Res.bind_done {β : Type} (s : State) (f : Unit → State → Res β) :
    (done s).bind f = f () s := rfl

@[simp] theorem Res.bind_raise {α β : Type} (c : FaultReason) (s : State) (f : α → State → Res β) :
    (raise c s : Res α).bind f = raise c s := rfl

@[simp] theorem Res.outcome_ok (s : State) : (Res.ok () s).outcome = .next s := rfl

@[simp] theorem Res.outcome_done (s : State) : (done s).outcome = .next s := rfl

@[simp] theorem Res.outcome_raised (s : State) : (Res.raised s : Res Unit).outcome = .next s := rfl

@[simp] theorem Res.outcome_stuck (r : Refusal) : (Res.stuck r : Res Unit).outcome = .refused r := rfl

@[simp] theorem Res.outcome_raise (c : FaultReason) (s : State) :
    (raise c s : Res Unit).outcome =
      .next { s with fault := some c, trace := s.trace ++ [.fault c] } := rfl

theorem Res.bind_assoc {α β γ : Type} (x : Res α) (f : α → State → Res β) (g : β → State → Res γ) :
    (x.bind f).bind g = x.bind (fun a s => (f a s).bind g) := by cases x <;> rfl

/-! ### Gates -/

/-- A state in which no fault was raised runs the step. -/
theorem whenLive_live {s : State} (h : s.fault = none) (k : State → Answer) :
    whenLive s k = k s := by simp [whenLive, h]

/-- A raised fault stops every step. -/
theorem whenLive_halted {s : State} {r : FaultReason} (h : s.fault = some r)
    (k : State → Answer) : whenLive s k = .fault (.halted r) := by simp [whenLive, h]

/-- A step that answers a next state ran in a live state. -/
theorem whenLive_next {s t : State} {k : State → Answer} (h : whenLive s k = .next t) :
    s.fault = none ∧ k s = .next t := by
  unfold whenLive at h
  split at h
  · cases h
  · exact ⟨‹_›, h⟩

theorem whenEnabled_next {m : String} {b : Bool} {s t : State} {k : State → Answer}
    (h : whenEnabled m b s k = .next t) : s.fault = none ∧ b = true ∧ k s = .next t := by
  obtain ⟨h1, h2⟩ := whenLive_next h
  by_cases hb : b = true
  · exact ⟨h1, hb, by simpa [hb] using h2⟩
  · simp [hb] at h2

/-! ### The register map -/

/-- Looking an element up by the value of an injective key finds it. -/
theorem find_by_key {α : Type} (f : α → Nat) :
    ∀ (l : List α), (l.map f).Nodup → ∀ r ∈ l, l.find? (fun x => f x == f r) = some r
  | [], _, r, h => by cases h
  | a :: l, hn, r, h => by
    simp only [List.map_cons, List.nodup_cons] at hn
    rcases List.mem_cons.1 h with rfl | h
    · simp
    · have : f a ≠ f r := fun e => hn.1 (e ▸ List.mem_map_of_mem h)
      rw [List.find?_cons_of_neg (by simpa using this)]
      exact find_by_key f l hn.2 r h

theorem mem_allRegs (r : Reg) : r ∈ allRegs := by cases r <;> decide

/-- Parameters in order: distinct offsets, each register inside the window and aligned. -/
theorem paramsOk_map {p : Params} (h : paramsOk p = true) :
    (allRegs.map (regOff p)).Nodup ∧
      ∀ r, regOff p r + regBytes r ≤ p.windowSize ∧ regOff p r % regBytes r = 0 := by
  simp only [paramsOk, Bool.and_eq_true, List.all_eq_true, decide_eq_true_eq] at h
  exact ⟨h.1.1.1.1.1.1.1.1.1.2, fun r => h.1.1.1.1.1.1.1.1.1.1 r (mem_allRegs r)⟩

/-- The register at a register's own offset is that register. -/
theorem regAt_regOff {p : Params} (h : paramsOk p = true) (r : Reg) :
    regAt p (regOff p r) = some r :=
  find_by_key (regOff p) allRegs (paramsOk_map h).1 r (mem_allRegs r)

/-- An access by name, at the register's width and in a direction it has, passes the check. -/
theorem check_regOff {s : State} (hp : paramsOk s.params = true) (ha : s.attached = true) (r : Reg)
    {bytes : Nat} {allowed : Reg → Bool} (hb : regBytes r = bytes) (hd : allowed r = true) :
    check s (regOff s.params r) bytes allowed = some r := by
  subst hb
  have hm := (paramsOk_map hp).2 r
  simp [check, ha, hm.1, hm.2, regAt_regOff hp r, hd]

/-! ### Accesses by name -/

theorem readReg8_ok {s : State} (hp : paramsOk s.params = true) (ha : s.attached = true) (r : Reg)
    (hb : regBytes r = 1) (hd : regReadable r = true) :
    readReg8 r s = .ok (show8 r s).1 (record (.r8 (regOff s.params r) (show8 r s).1) (show8 r s).2) := by
  simp [readReg8, read8, check_regOff hp ha r hb hd]

theorem readReg32_ok {s : State} (hp : paramsOk s.params = true) (ha : s.attached = true) (r : Reg)
    (hb : regBytes r = 4) (hd : regReadable r = true) :
    readReg32 r s =
      .ok (show32 r s).1 (record (.r32 (regOff s.params r) (show32 r s).1) (show32 r s).2) := by
  simp [readReg32, read32, check_regOff hp ha r hb hd]

theorem writeReg8_ok {s : State} (hp : paramsOk s.params = true) (ha : s.attached = true) (r : Reg)
    (hb : regBytes r = 1) (hd : regWritable r = true) (v : Byte) :
    writeReg8 r v s =
      done { record (.w8 (regOff s.params r) v) s with win := latch8 r v s.win } := by
  simp [writeReg8, write8, check_regOff hp ha r hb hd]

theorem writeReg32_ok {s : State} (hp : paramsOk s.params = true) (ha : s.attached = true) (r : Reg)
    (hb : regBytes r = 4) (hd : regWritable r = true) (v : Word) :
    writeReg32 r v s =
      done { record (.w32 (regOff s.params r) v) s with win := latch32 r v s.win } := by
  simp [writeReg32, write32, check_regOff hp ha r hb hd]

theorem writeReg16_ok {s : State} (hp : paramsOk s.params = true) (ha : s.attached = true) (v : Half) :
    writeReg16 .blksize v s =
      done { record (.w16 (regOff s.params .blksize) v) s with
        win := { s.win with blksize := v } } := by
  have : check s (regOff s.params .blksize) 2 regWritable = some .blksize :=
    check_regOff hp ha .blksize rfl rfl
  simp [writeReg16, write16, this]

/-! ### What an access can do -/

theorem read8_cases (off : Nat) (s : State) :
    read8 off s = raise .windowAccess s ∨
      ∃ r, regReadable r = true ∧
        read8 off s = .ok (show8 r s).1 (record (.r8 off (show8 r s).1) (show8 r s).2) := by
  unfold read8
  cases h : check s off 1 regReadable with
  | none => exact .inl rfl
  | some r =>
    refine .inr ⟨r, ?_, rfl⟩
    simp only [check] at h
    split at h
    · split at h
      · split at h
        · cases h; simp_all
        · cases h
      · cases h
    · cases h

theorem read32_cases (off : Nat) (s : State) :
    read32 off s = raise .windowAccess s ∨
      ∃ r, regReadable r = true ∧
        read32 off s = .ok (show32 r s).1 (record (.r32 off (show32 r s).1) (show32 r s).2) := by
  unfold read32
  cases h : check s off 4 regReadable with
  | none => exact .inl rfl
  | some r =>
    refine .inr ⟨r, ?_, rfl⟩
    simp only [check] at h
    split at h
    · split at h
      · split at h
        · cases h; simp_all
        · cases h
      · cases h
    · cases h

theorem write8_cases (off : Nat) (v : Byte) (s : State) :
    write8 off v s = raise .windowAccess s ∨
      ∃ r, write8 off v s = done { record (.w8 off v) s with win := latch8 r v s.win } := by
  unfold write8
  cases check s off 1 regWritable with
  | none => exact .inl rfl
  | some r => exact .inr ⟨r, rfl⟩

theorem write32_cases (off : Nat) (v : Word) (s : State) :
    write32 off v s = raise .windowAccess s ∨
      ∃ r, write32 off v s = done { record (.w32 off v) s with win := latch32 r v s.win } := by
  unfold write32
  cases check s off 4 regWritable with
  | none => exact .inl rfl
  | some r => exact .inr ⟨r, rfl⟩

theorem write16_cases (off : Nat) (v : Half) (s : State) :
    write16 off v s = raise .windowAccess s ∨
      write16 off v s = done { record (.w16 off v) s with win := { s.win with blksize := v } } := by
  unfold write16
  cases check s off 2 regWritable with
  | none => exact .inl rfl
  | some r => exact .inr rfl

end Sys2Proof.Machine
end

