-- ==== Sys2Proof/Laws/Engine.lean ====
section
/-! SUPPORT. Said once: what the shared rules of Machine/Engine.lean can do to a state. A relation that
is a preorder, keeps the parameters and holds across each elementary move holds across every rule
(kept_issue, kept_dispatch and the rest). A frame or an invariant is then one choice of the relation. -/

namespace Sys2Proof.Machine

/-- P of an operation's value and state where it goes on, Q of its state where it raised a fault. -/
def Res.Ends {α : Type} (x : Res α) (P : α → State → Prop) (Q : State → Prop) : Prop :=
  match x with
  | .ok a t => P a t
  | .raised t => Q t
  | .stuck _ => True

theorem Res.Ends.bind {α β : Type} {x : Res α} {f : α → State → Res β} {P : α → State → Prop}
    {Q : State → Prop} {P' : β → State → Prop} (h : x.Ends P Q)
    (hf : ∀ a t, P a t → (f a t).Ends P' Q) : (x.bind f).Ends P' Q := by
  cases x with
  | ok a t => exact hf a t h
  | raised t => exact h
  | stuck r => trivial

theorem Res.Ends.mono {α : Type} {x : Res α} {P P' : α → State → Prop} {Q Q' : State → Prop}
    (h : x.Ends P Q) (hp : ∀ a t, P a t → P' a t) (hq : ∀ t, Q t → Q' t) : x.Ends P' Q' := by
  cases x with
  | ok a t => exact hp a t h
  | raised t => exact hq t h
  | stuck r => trivial

/-- What an operation with an answer ends in holds of the answer's next state. -/
theorem Res.Ends.next {x : Res Unit} {Q : State → Prop} {t : State}
    (h : x.Ends (fun _ u => Q u) Q) (ht : x.outcome = .next t) : Q t := by
  cases x with
  | ok a u => cases ht; exact h
  | raised u => cases ht; exact h
  | stuck r => cases ht

/-- The fields the issuer supplies agree (R237). -/
def sameCommand (c d : Command) : Prop :=
  d.opcode = c.opcode ∧ d.arg = c.arg ∧ d.shapeCode = c.shapeCode ∧ d.timeoutMs = c.timeoutMs ∧
    d.role = c.role

/-- The fields the issuer supplies agree (R237). -/
def sameData (c d : Data) : Prop :=
  d.dir = c.dir ∧ d.blksz = c.blksz ∧ d.blocks = c.blocks ∧ d.sg = c.sg ∧ d.stop = c.stop

/-- The elementary moves of the shared rules, and that Q holds across each. -/
structure Kept (Q : State → State → Prop) : Prop where
  refl : ∀ s, Q s s
  trans : ∀ {s t u}, Q s t → Q t u → Q s u
  params : ∀ {s t}, Q s t → t.params = s.params
  record : ∀ e s, Q s (record e s)
  fault : ∀ c s, Q s { s with fault := some c }
  shown8 : ∀ s, Q s (show8 .abort s).2
  shown32 : ∀ r s, Q s (show32 r s).2
  latched8 : ∀ r v s, r ∈ [Reg.cmd, .cmdCtrl, .dataCtrl, .abort] →
    Q s { s with win := latch8 r v s.win }
  latched32 : ∀ r v s, r ∈ [Reg.intStatus, .arg, .data] → Q s { s with win := latch32 r v s.win }
  latched16 : ∀ v s, Q s { s with win := { s.win with blksize := v } }
  cursor : ∀ c s, Q s { s with cursor := c }
  slot : ∀ r s, Q s { s with curCmd := r }
  phase : ∀ b s, Q s { s with curData := b, dataEarly := false }
  early : ∀ s, Q s { s with dataEarly := true }
  timer : ∀ n s, Q s { s with timer := n }
  schedule : ∀ w s, Q s (scheduleWork w s)
  cmdField : ∀ r f s, (∀ c, sameCommand c (f c)) → Q s (updCmd r f s)
  dataField : ∀ f s, (∀ d, sameData d (f d)) → Q s (updData f s)
  memory : ∀ a v s, a < 2 ^ s.params.memAddrWidth →
    Q s { s with mem := Memory.write s.mem a v }

section
variable {Q : State → State → Prop} (K : Kept Q)
include K

theorem Kept.ok {s t : State} (h : Q s t) (hp : paramsOk s.params = true) :
    paramsOk t.params = true := (K.params h).symm ▸ hp

theorem kept_raise {α : Type} {s t : State} (h : Q s t) (c : FaultReason) :
    (raise c t : Res α).Ends (fun _ u => Q s u) (Q s) :=
  K.trans h (K.trans (K.fault c t) (K.record _ _))

/-- A rule that ends in Q of its start ends in Q of any earlier state. -/
theorem kept_from {α : Type} {s t : State} (h : Q s t) {x : Res α}
    (hx : x.Ends (fun _ u => Q t u) (Q t)) : x.Ends (fun _ u => Q s u) (Q s) :=
  hx.mono (fun _ _ hu => K.trans h hu) (fun _ hu => K.trans h hu)

theorem kept_writeReg8 {s : State} (hp : paramsOk s.params = true) {r : Reg}
    (hr : r ∈ [Reg.cmd, .cmdCtrl, .dataCtrl, .abort]) (v : Byte) :
    (writeReg8 r v s).Ends (fun _ u => Q s u) (Q s) := by
  unfold writeReg8 write8
  cases h : check s (regOff s.params r) 1 regWritable with
  | none => exact kept_raise K (K.refl s) _
  | some r' =>
    have : r' = r := by
      simp only [check, regAt_regOff hp r] at h
      split at h
      · split at h
        · exact (Option.some.inj h).symm
        · cases h
      · cases h
    subst this
    exact K.trans (K.record _ s) (K.latched8 r' v _ hr)

theorem kept_writeReg32 {s : State} (hp : paramsOk s.params = true) {r : Reg}
    (hr : r ∈ [Reg.intStatus, .arg, .data]) (v : Word) :
    (writeReg32 r v s).Ends (fun _ u => Q s u) (Q s) := by
  unfold writeReg32 write32
  cases h : check s (regOff s.params r) 4 regWritable with
  | none => exact kept_raise K (K.refl s) _
  | some r' =>
    have : r' = r := by
      simp only [check, regAt_regOff hp r] at h
      split at h
      · split at h
        · exact (Option.some.inj h).symm
        · cases h
      · cases h
    subst this
    exact K.trans (K.record _ s) (K.latched32 r' v _ hr)

theorem kept_writeReg16 (s : State) (v : Half) :
    (writeReg16 .blksize v s).Ends (fun _ u => Q s u) (Q s) := by
  rcases write16_cases (regOff s.params .blksize) v s with h | h
  · simp only [writeReg16, h]; exact kept_raise K (K.refl s) _
  · simp only [writeReg16, h]; exact K.trans (K.record _ s) (K.latched16 v _)

theorem kept_readReg32 (r : Reg) (s : State) :
    (readReg32 r s).Ends (fun _ u => Q s u) (Q s) := by
  rcases read32_cases (regOff s.params r) s with h | ⟨r', _, h⟩
  · simp only [readReg32, h]; exact kept_raise K (K.refl s) _
  · simp only [readReg32, h]; exact K.trans (K.shown32 r' s) (K.record _ _)

theorem kept_readAbort {s : State} (hp : paramsOk s.params = true) :
    (readReg8 .abort s).Ends (fun _ u => Q s u) (Q s) := by
  unfold readReg8 read8
  cases h : check s (regOff s.params .abort) 1 regReadable with
  | none => exact kept_raise K (K.refl s) _
  | some r' =>
    have : r' = .abort := by
      simp only [check, regAt_regOff hp .abort] at h
      split at h
      · split at h
        · exact (Option.some.inj h).symm
        · cases h
      · cases h
    subst this
    exact K.trans (K.shown8 s) (K.record _ _)

/-! ### Transfer port -/

theorem kept_curAddr (sg : List SgEntry) (s : State) :
    (curAddr sg s).Ends (fun a u => Q s u ∧ a < 2 ^ u.params.memAddrWidth) (Q s) := by
  simp only [curAddr]
  split
  · rename_i a ha
    refine ⟨K.cursor _ s, ?_⟩
    simp only [addrAt, Option.map_eq_some_iff] at ha
    obtain ⟨e, -, rfl⟩ := ha
    exact Nat.mod_lt _ (by positivity)
  · exact K.trans (K.cursor _ s) (K.trans (K.fault _ _) (K.record _ _))

theorem kept_memWrite {s : State} {a : Nat} (ha : a < 2 ^ s.params.memAddrWidth) (v : Byte) :
    Q s (memWrite a v s) := K.trans (K.memory a v s ha) (K.record _ _)

theorem kept_refill (acc : Word) (avail : Nat) (s : State) :
    (refill acc avail s).Ends (fun _ u => Q s u) (Q s) := by
  unfold refill
  split
  · exact (kept_readReg32 K .data s).bind fun _ _ h => h
  · exact K.refl s

theorem kept_readBytes (sg : List SgEntry) : ∀ (n : Nat) (acc : Word) (avail : Nat) (s : State),
    (readBytes sg n acc avail s).Ends (fun _ u => Q s u) (Q s)
  | 0, _, _, s => K.refl s
  | n + 1, acc, avail, s => by
    simp only [readBytes]
    refine (kept_refill K acc avail s).bind fun x s1 h1 => ?_
    refine ((kept_curAddr K sg s1).mono (fun _ _ h => And.intro (K.trans h1 h.1) h.2)
      (fun _ h => K.trans h1 h)).bind fun a s2 h2 => ?_
    exact kept_from K (K.trans h2.1 (K.trans (kept_memWrite K h2.2 _) (K.cursor _ _)))
      (kept_readBytes sg n _ _ _)

theorem kept_readBlock (sg : List SgEntry) (n : Nat) (s : State) :
    (readBlock sg n s).Ends (fun _ u => Q s u) (Q s) :=
  (kept_readBytes K sg n 0 0 s).bind fun _ _ h => K.trans h (K.cursor _ _)

theorem kept_flushFull {s : State} (hp : paramsOk s.params = true) (acc : Word) :
    (flushFull acc s).Ends (fun _ u => Q s u) (Q s) := by
  unfold flushFull
  split
  · exact (kept_writeReg32 K hp (by simp) acc).bind fun _ _ h => K.trans h (K.cursor _ _)
  · exact K.refl s

theorem kept_writeBytes (sg : List SgEntry) : ∀ (n : Nat) (acc : Word) (s : State),
    paramsOk s.params = true → (writeBytes sg n acc s).Ends (fun _ u => Q s u) (Q s)
  | 0, _, s, _ => K.refl s
  | n + 1, acc, s, hp => by
    simp only [writeBytes]
    refine ((kept_curAddr K sg s).mono (fun _ _ h => h.1) (fun _ h => h)).bind fun a s1 h1 => ?_
    have h2 : Q s (setAccOff ((bumpOff (memRead a s1).2).cursor.accOff + 1)
        (bumpOff (memRead a s1).2)) :=
      K.trans h1 (K.trans (K.record _ _) (K.trans (K.cursor _ _) (K.cursor _ _)))
    refine (kept_from K h2 (kept_flushFull K (Kept.ok K h2 hp) _)).bind fun acc' s3 h3 => ?_
    exact kept_from K h3 (kept_writeBytes sg n acc' s3 (Kept.ok K h3 hp))

theorem kept_writeBlock (sg : List SgEntry) (n : Nat) {s : State} (hp : paramsOk s.params = true) :
    (writeBlock sg n s).Ends (fun _ u => Q s u) (Q s) := by
  unfold writeBlock
  have h0 : Q s (setAccOff 0 s) := K.cursor _ s
  refine (kept_from K h0 (kept_writeBytes K sg n 0 _ (Kept.ok K h0 hp))).bind fun acc t h1 => ?_
  refine Res.Ends.bind (P := fun _ u => Q s u) ?_ fun _ u h2 => K.trans h2 (K.cursor _ _)
  split
  · exact kept_from K h1 (kept_writeReg32 K (Kept.ok K h1 hp) (by simp) acc)
  · exact h1

theorem kept_transferPio {s : State} (hp : paramsOk s.params = true) :
    (transferPio s).Ends (fun _ u => Q s u) (Q s) := by
  unfold transferPio
  split
  · exact K.refl s
  · split
    · trivial
    · refine Res.Ends.bind (P := fun _ u => Q s u) ?_ fun _ t h => K.trans h (K.cursor _ _)
      unfold moveBlock
      split
      · exact kept_readBlock K _ _ s
      · exact kept_writeBlock K _ _ hp

/-! ### Prepare, issue, aborts, finish -/

theorem kept_triggerBlock {s : State} (hp : paramsOk s.params = true) (size : Half) (dir : Dir) :
    (triggerBlock size dir s).Ends (fun _ u => Q s u) (Q s) :=
  (kept_writeReg16 K s size).bind fun _ _ h =>
    kept_from K h (kept_writeReg8 K (Kept.ok K h hp) (by simp) _)

theorem kept_prepareData {s : State} (hp : paramsOk s.params = true) :
    (prepareData s).Ends (fun _ u => Q s u) (Q s) := by
  unfold prepareData
  split
  · exact K.refl s
  · split
    · exact kept_raise K (K.refl s) _
    · split
      · exact kept_raise K (K.refl s) _
      · split
        · exact kept_raise K (K.refl s) _
        · rename_i d _ _ _ _
          have h1 := K.dataField (fun x => { x with bytesXfered := 0 }) s
            (fun _ => ⟨rfl, rfl, rfl, rfl, rfl⟩)
          have h2 := K.cursor { blocksLeft := d.blocks, sgIdx := 0, sgOff := 0, accOff := 0 }
            (updData (fun x => { x with bytesXfered := 0 }) s)
          have h3 := K.trans h1 (K.trans h2 (K.phase true _))
          exact kept_from K h3 (kept_triggerBlock K (Kept.ok K h3 hp) _ _)

theorem kept_launch {s : State} (hp : paramsOk s.params = true) (c : BitVec 3) :
    (launch c s).Ends (fun _ u => Q s u) (Q s) := by
  unfold launch
  split
  · exact kept_raise K (K.refl s) _
  · exact kept_writeReg8 K hp (by simp) _

theorem kept_sendCommand {s : State} (hp : paramsOk s.params = true) (c : Command) :
    (sendCommand c s).Ends (fun _ u => Q s u) (Q s) := by
  unfold sendCommand
  split
  · exact kept_raise K (K.refl s) _
  · refine (kept_writeReg8 K hp (by simp) _).bind fun _ s1 h1 => ?_
    refine (kept_from K h1 (kept_writeReg32 K (Kept.ok K h1 hp) (by simp) _)).bind
      fun _ s2 h2 => ?_
    exact kept_from K h2 (kept_launch K (Kept.ok K h2 hp) _)

theorem kept_issue {s : State} (hp : paramsOk s.params = true) (r : Role) :
    (issue r s).Ends (fun _ u => Q s u) (Q s) := by
  unfold issue
  split
  · trivial
  · rename_i c _
    have h1 : Q s (armTimer (timeoutUnits (hasData s c) c.timeoutMs) { s with curCmd := some r }) :=
      K.trans (K.slot _ s) (K.trans (K.timer _ _) (K.record _ _))
    refine Res.Ends.bind (P := fun _ u => Q s u) ?_ fun _ t h => ?_
    · split
      · exact kept_from K h1 (kept_prepareData K (Kept.ok K h1 hp))
      · exact h1
    · exact kept_from K h (kept_sendCommand K (Kept.ok K h hp) c)

theorem kept_pollAbort (flag : Byte) : ∀ (n : Nat) (s : State), paramsOk s.params = true →
    (pollAbort flag n s).Ends (fun _ u => Q s u) (Q s)
  | 0, s, _ => K.record _ s
  | n + 1, s, hp => by
    simp only [pollAbort]
    refine (kept_readAbort K hp).bind fun v t h => ?_
    split
    · exact h
    · exact kept_from K h (kept_pollAbort flag n t (Kept.ok K h hp))

theorem kept_abortSequence {s : State} (hp : paramsOk s.params = true) (k : AbortKind) :
    (abortSequence k s).Ends (fun _ u => Q s u) (Q s) :=
  (kept_writeReg8 K hp (by simp) _).bind fun _ t h =>
    kept_from K h (kept_pollAbort K _ _ t (Kept.ok K h hp))

theorem kept_abortBoth {s : State} (hp : paramsOk s.params = true) :
    (abortBoth s).Ends (fun _ u => Q s u) (Q s) :=
  (kept_abortSequence K hp .cmd).bind fun _ _ h =>
    kept_from K h (kept_abortSequence K (Kept.ok K h hp) .data)

theorem kept_finishData {s : State} (hp : paramsOk s.params = true) (e : Err) :
    (finishData e s).Ends (fun _ u => Q s u) (Q s) := by
  unfold finishData
  split
  · trivial
  · split
    · trivial
    · have h1 : Q s (updData (closeData e) { s with curData := false, dataEarly := false }) :=
        K.trans (K.phase false s) (K.dataField _ _ (fun _ => ⟨rfl, rfl, rfl, rfl, rfl⟩))
      simp only
      split
      · refine Res.Ends.bind (P := fun _ u => Q s u) ?_ fun _ t h => ?_
        · split
          · exact h1
          · exact kept_from K h1 (kept_abortBoth K (Kept.ok K h1 hp))
        · exact kept_from K h (kept_issue K (Kept.ok K h hp) .stop)
      · exact K.trans h1 (K.schedule _ _)

/-! ### Interrupts -/

theorem kept_captureResponse {s : State} (r : Role) (c : Command) :
    (captureResponse r c s).Ends (fun _ u => Q s u) (Q s) := by
  have same : ∀ g : Command → Resp, ∀ d : Command, sameCommand d { d with resp := g d } :=
    fun _ _ => ⟨rfl, rfl, rfl, rfl, rfl⟩
  unfold captureResponse
  simp only
  split
  · trivial
  · exact K.refl s
  · refine (kept_readReg32 K .resp0 s).bind fun v0 s0 h0 => ?_
    refine (kept_from K h0 (kept_readReg32 K .resp1 s0)).bind fun v1 s1 h1 => ?_
    refine (kept_from K h1 (kept_readReg32 K .resp2 s1)).bind fun v2 s2 h2 => ?_
    refine (kept_from K h2 (kept_readReg32 K .resp3 s2)).bind fun v3 s3 h3 => ?_
    exact K.trans h3 (K.cmdField r _ _ (same _))
  · refine (kept_readReg32 K .resp0 s).bind fun v t h => ?_
    exact K.trans h (K.cmdField r _ _ (same _))

theorem kept_afterCommand {s : State} (hp : paramsOk s.params = true) (r : Role) :
    (afterCommand r s).Ends (fun _ u => Q s u) (Q s) := by
  unfold afterCommand
  split
  · exact kept_issue K hp .primary
  · split
    · exact K.schedule _ s
    · split
      · split
        · trivial
        · exact kept_finishData K hp _
      · exact K.refl s

theorem kept_finishCommand {s : State} (hp : paramsOk s.params = true) :
    (finishCommand s).Ends (fun _ u => Q s u) (Q s) := by
  unfold finishCommand
  split
  · trivial
  · rename_i r _
    split
    · trivial
    · rename_i c _
      refine (kept_captureResponse K r c).bind fun _ t h => ?_
      have h1 := K.trans h (K.trans (K.cmdField r (fun x => { x with error := .ok }) t
        (fun _ => ⟨rfl, rfl, rfl, rfl, rfl⟩)) (K.slot none _))
      exact kept_from K h1 (kept_afterCommand K (Kept.ok K h1 hp) r)

theorem kept_onCommandInterrupt {s : State} (hp : paramsOk s.params = true) (mask : Word) :
    (onCommandInterrupt mask s).Ends (fun _ u => Q s u) (Q s) := by
  unfold onCommandInterrupt
  split
  · exact K.record _ s
  · rename_i r _
    split
    · trivial
    · rename_i c _
      simp only
      split
      · exact K.trans (K.cmdField r (fun x => { x with error := cmdError s.params mask }) s
          (fun _ => ⟨rfl, rfl, rfl, rfl, rfl⟩)) (K.schedule _ _)
      · have h1 : ∀ b : Prop, ∀ [Decidable b], Q s (if b then logEvent .busyWithData s else s) := by
          intro b _
          split
          · exact K.record _ s
          · exact K.refl s
        have h2 := h1 (Shape.ofCode c.shapeCode = some .shortBusy ∧ s.curData = true)
        split
        · exact kept_from K h2 (kept_finishCommand K (Kept.ok K h2 hp))
        · exact h2

theorem kept_forceTimeout (r : Role) (s : State) :
    (forceTimeout r s).Ends (fun _ u => Q s u) (Q s) := by
  unfold forceTimeout
  split
  · trivial
  · exact K.trans (K.cmdField r (fun x => { x with error := .timeout }) s
      (fun _ => ⟨rfl, rfl, rfl, rfl, rfl⟩)) (K.schedule _ _)

theorem kept_onDataNoPhase {s : State} (hp : paramsOk s.params = true) (mask : Word) :
    (onDataNoPhase mask s).Ends (fun _ u => Q s u) (Q s) := by
  unfold onDataNoPhase
  split
  · exact kept_finishCommand K hp
  · have h1 : Q s (logEvent .spuriousData s) := K.record _ s
    simp only
    split
    · exact h1
    · split
      · exact kept_from K h1 (kept_forceTimeout K _ _)
      · exact h1

theorem kept_onTransferComplete {s : State} (hp : paramsOk s.params = true) (d : Data) :
    (onTransferComplete d s).Ends (fun _ u => Q s u) (Q s) := by
  unfold onTransferComplete
  split
  · exact K.early s
  · split
    · exact kept_triggerBlock K hp _ _
    · exact kept_finishData K hp _

theorem kept_onDataInterrupt {s : State} (hp : paramsOk s.params = true) (mask : Word) :
    (onDataInterrupt mask s).Ends (fun _ u => Q s u) (Q s) := by
  unfold onDataInterrupt
  split
  · exact kept_onDataNoPhase K hp mask
  · split
    · trivial
    · simp only
      split
      · exact kept_finishData K hp _
      · refine Res.Ends.bind (P := fun _ u => Q s u) ?_ fun _ t h => ?_
        · split
          · exact kept_transferPio K hp
          · exact K.refl s
        · split
          · exact kept_from K h (kept_onTransferComplete K (Kept.ok K h hp) _)
          · exact h

theorem kept_acknowledge {s : State} (hp : paramsOk s.params = true) (bits : Word)
    {handler : State → Res Unit}
    (hh : ∀ t, paramsOk t.params = true → (handler t).Ends (fun _ u => Q t u) (Q t)) :
    (acknowledge bits handler s).Ends (fun _ u => Q s u) (Q s) := by
  unfold acknowledge
  split
  · exact K.refl s
  · exact (kept_writeReg32 K hp (by simp) _).bind fun _ t h =>
      kept_from K h (hh t (Kept.ok K h hp))

theorem kept_logRemaining (m : Word) (s : State) :
    (logRemaining m s).Ends (fun _ u => Q s u) (Q s) := by
  have h1 : ∀ (b : Bool) (k : LogKind) (t : State), Q t (if b = true then logEvent k t else t) := by
    intro b k t
    split
    · exact K.record _ t
    · exact K.refl t
  exact K.trans (h1 _ _ s) (h1 _ _ _)

theorem kept_dispatchFront {s : State} (hp : paramsOk s.params = true) (st : Word) :
    (dispatchFront st s).Ends (fun _ u => Q s u) (Q s) := by
  unfold dispatchFront
  refine (kept_acknowledge K hp _ (handler := fun t => done (scheduleWork .card t))
    (fun t _ => K.schedule .card t)).bind fun _ t h => ?_
  exact kept_from K h (kept_acknowledge K (Kept.ok K h hp) _
    (fun u hu => kept_onCommandInterrupt K hu _))

theorem kept_dispatchBack {s : State} (hp : paramsOk s.params = true) (st : Word) :
    (dispatchBack st s).Ends (fun _ u => Q s u) (Q s) := by
  unfold dispatchBack
  refine (kept_acknowledge K hp _ (fun u hu => kept_onDataInterrupt K hu _)).bind fun _ t h => ?_
  exact kept_from K h (kept_acknowledge K (Kept.ok K h hp) _
    (fun u _ => kept_logRemaining K _ u))

theorem kept_dispatch {s : State} (hp : paramsOk s.params = true) :
    (dispatch s).Ends (fun _ u => Q s u) (Q s) := by
  unfold dispatch
  refine (kept_readReg32 K .intStatus s).bind fun st t h => ?_
  split
  · exact h
  · refine (kept_from K h (kept_dispatchFront K (Kept.ok K h hp) st)).bind fun _ u hu => ?_
    exact kept_from K hu (kept_dispatchBack K (Kept.ok K hu hp) st)

theorem kept_watchdogFire {s : State} (hp : paramsOk s.params = true) :
    (watchdogFire s).Ends (fun _ u => Q s u) (Q s) := by
  have h1 : Q s { s with timer := none } := K.timer none s
  unfold watchdogFire
  simp only
  split
  · exact h1
  · split
    · exact kept_from K h1 (kept_finishData K (Kept.ok K h1 hp) _)
    · exact kept_from K h1 (kept_forceTimeout K _ _)

end

end Sys2Proof.Machine
end

