-- ==== Sys2Proof/Laws/Operands.lean ====
section
/-! SUPPORT. What the operand forms can do: the long-response correction, transfer requests, the PRESENT
read, the fault codes, what is notified of a Request. -/

namespace Sys2Proof.Machine

/-! ### LONG_RESP_FIX (R102) -/

theorem longRespFix_swapEachWord {p : Params} (h : p.longRespFix = .swapEachWord) (w : RespWords) :
    longRespFix p w = swapWords w := by simp [longRespFix, h]

theorem longRespFix_unknown {p : Params} {n : Nat} (h : p.longRespFix = .unknown n) (w : RespWords) :
    longRespFix p w = Config.freeRespFix n w := by simp [longRespFix, h]

theorem lookup_map_mem {f : RespWords → RespWords} {w : RespWords} :
    ∀ {inputs : List RespWords}, w ∈ inputs → (inputs.map (fun x => (x, f x))).lookup w = some (f w)
  | x :: rest, h => by
    by_cases hx : w = x
    · simp [hx]
    · have hr : w ∈ rest := (List.mem_cons.mp h).resolve_left hx
      simpa [List.lookup, beq_eq_false_iff_ne.mpr hx] using lookup_map_mem hr

/-- Any function can be given: listed on the words a response can show, it is the correction there. -/
theorem longRespFix_listed {p : Params} (f : RespWords → RespWords) {inputs : List RespWords}
    (h : p.longRespFix = .listed (inputs.map (fun x => (x, f x)))) {w : RespWords} (hw : w ∈ inputs) :
    longRespFix p w = f w := by
  simp [longRespFix, h, lookup_map_mem hw]

/-! ### Transfer requests (R162, R287; log 37) -/

/-- A mask moves a block where it asks for one, and, once dataEarly is set, the parameter lets it. -/
theorem movesBlock_iff (s : State) (mask : Word) :
    movesBlock s mask = true ↔
      mask &&& dataXfer s.params ≠ 0 ∧ (s.dataEarly = false ∨ s.params.earlyBlocks = .moved) := by
  cases h : s.dataEarly <;> cases e : s.params.earlyBlocks <;> simp [movesBlock, overlaps, h, e]

/-! ### The PRESENT read (R116, R51, R241; log 8) -/

/-- The statements' value is the one the machine shows for the next draw. -/
theorem presentValue_drawAt (s : State) : presentValue s (drawAt s 0) = presentShown s := by
  cases h : s.params.presentRead <;> simp [presentValue, presentShown, h]

theorem presentValue_drawn {s : State} (h : s.params.presentRead = .drawn) (w : Word) :
    presentValue s w = w := by simp [presentValue, h]

/-- Where reads show the slot, the card bit shown is the one the register holds, whatever is drawn. -/
theorem presentValue_slot_card {s : State} (h : s.params.presentRead = .slot) (w : Word) :
    presentValue s w &&& bitMask s.params.presentCard = s.win.present &&& bitMask s.params.presentCard := by
  simp only [presentValue, h]
  ext i
  simp
  grind

/-- Elsewhere it shows the word drawn. -/
theorem presentValue_slot_rest {s : State} (h : s.params.presentRead = .slot) (w : Word) :
    presentValue s w &&& ~~~bitMask s.params.presentCard = w &&& ~~~bitMask s.params.presentCard := by
  simp only [presentValue, h]
  ext i
  simp
  grind

/-! ### Fault codes (R254) -/

theorem FaultReason.code_injective {a b : FaultReason} (h : FaultReason.code a = FaultReason.code b) :
    a = b := by
  revert h; cases a <;> cases b <;> decide

/-! ### What is notified (R236) -/

theorem notified_dutyKept {s : State} (h : s.dutyBroken = false) (q : Request) : notified s q = q := by
  simp [notified, h]

theorem notified_dutyBroken {s : State} (h : s.dutyBroken = true) (q : Request) :
    notified s q = Request.withResult (Config.freeResult s.breaches) q := by
  simp [notified, h]

theorem Command.issuerPart_withResult (x : CommandResult) (c : Command) :
    Command.issuerPart (Command.withResult x c) = Command.issuerPart c := rfl

/-- Whatever is notified, the issuer's own fields are the ones it supplied (R237). -/
theorem issuerPart_notified (s : State) (q : Request) :
    Request.issuerPart (notified s q) = Request.issuerPart q := by
  cases h : s.dutyBroken
  · rw [notified_dutyKept h]
  · have stop : ∀ c : Option Command, (c.map (Command.withResult (Config.freeResult s.breaches).stop)).map
        Command.issuerPart = c.map Command.issuerPart := fun c => by
      cases c <;> simp [Command.issuerPart_withResult]
    rw [notified_dutyBroken h]
    simp [Request.issuerPart, Request.withResult, Function.comp_def, Command.issuerPart_withResult]

end Sys2Proof.Machine
end

