-- ==== Sys2Proof/Laws/PerInstr.lean ====
section
/-! SUPPORT. Per step: the encoding of a well-formed step lies in its row's format and carries the
bits its row of spec/opcode_table.json fixes (log 14 for the status words). -/

namespace Sys2Proof.Laws.RowBits

/-- The table's word of an entry: the bytes before the operands, the first the lowest. -/
def firstWord (e : Entry) : Word :=
  match e.fmt, e.bytes with
  | .argWord, [a, b, c, d] => wordOf a b c d
  | .intStat, [a, b, c, d] => wordOf a b c d
  | .blkSz, [a, b] => wordOf a b 0 0
  | _, a :: _ => wordOf a 0 0 0
  | _, [] => 0

/-- An entry lies in a row: its format, and its word under the row's mask. -/
def InRow (e : Entry) (fmt : Format) (mask value : Word) : Prop :=
  e.fmt = fmt ∧ firstWord e &&& mask = value

/-- What the table fixes of each step's encoding. -/
def Statement : Instr → Prop
  | .attach => InRow (encode .attach) .op 0xFF 0x01
  | .detach => InRow (encode .detach) .op 0xFF 0x02
  | .submit r => InRow (encode (.submit r)) .op 0xFF 0x03
  | .irq => InRow (encode .irq) .op 0xFF 0x04
  | .wdog => InRow (encode .wdog) .op 0xFF 0x05
  | .workFinish => InRow (encode .workFinish) .op 0xFF 0x06
  | .workCard => InRow (encode .workCard) .op 0xFF 0x07
  | .notify => InRow (encode .notify) .op 0xFF 0x08
  | .setPower mode => InRow (encode (.setPower mode)) .op 0xFF 0x09
  | .envRaise m => InRow (encode (.envRaise m)) .op 0xFF 0x0A
  | .envCard b => InRow (encode (.envCard b)) .op 0xFF 0x0B
  | .issue r => InRow (encode (.issue r)) .op 0xFF 0x10
  | .arm n => InRow (encode (.arm n)) .op 0xFF 0x11
  | .cancel => InRow (encode .cancel) .op 0xFF 0x12
  | .cmdIrq mask => InRow (encode (.cmdIrq mask)) .op 0xFF 0x13
  | .finishCmd => InRow (encode .finishCmd) .op 0xFF 0x14
  | .prepare => InRow (encode .prepare) .op 0xFF 0x15
  | .triggerBlock size dir => InRow (encode (.triggerBlock size dir)) .op 0xFF 0x16
  | .dataIrq mask => InRow (encode (.dataIrq mask)) .op 0xFF 0x17
  | .pio => InRow (encode .pio) .op 0xFF 0x18
  | .pioReadBlock => InRow (encode .pioReadBlock) .op 0xFF 0x19
  | .pioWriteBlock => InRow (encode .pioWriteBlock) .op 0xFF 0x1A
  | .finishData e => InRow (encode (.finishData e)) .op 0xFF 0x1B
  | .abortSeq k => InRow (encode (.abortSeq k)) .op 0xFF 0x1C
  | .schedule w => InRow (encode (.schedule w)) .op 0xFF 0x1D
  | .log k => InRow (encode (.log k)) .op 0xFF 0x1E
  | .read8 off => InRow (encode (.read8 off)) .op 0xFF 0x20
  | .read32 off => InRow (encode (.read32 off)) .op 0xFF 0x21
  | .write8 off v => InRow (encode (.write8 off v)) .op 0xFF 0x22
  | .write32 off v => InRow (encode (.write32 off v)) .op 0xFF 0x23
  | .write16 off v => InRow (encode (.write16 off v)) .op 0xFF 0x24
  | .cmdbyte opcode => InRow (encode (.cmdbyte opcode)) .cmdByte 0xC0 0x40
  | .argword arg => InRow (encode (.argword arg)) .argWord 0x00000000 0x00000000
  | .rspctlNone => InRow (encode .rspctlNone) .rspCtl 0xFF 0x00
  | .rspctlShort => InRow (encode .rspctlShort) .rspCtl 0xFF 0x01
  | .rspctlShortbusy => InRow (encode .rspctlShortbusy) .rspCtl 0xFF 0x03
  | .rspctlLong => InRow (encode .rspctlLong) .rspCtl 0xFF 0x04
  | .rspctlR3 => InRow (encode .rspctlR3) .rspCtl 0xFF 0x08
  | .datactlRead => InRow (encode .datactlRead) .dataCtl 0xFF 0x81
  | .datactlWrite => InRow (encode .datactlWrite) .dataCtl 0xFF 0x82
  | .abortCmd => InRow (encode .abortCmd) .abortCtl 0xFF 0x02
  | .abortData => InRow (encode .abortData) .abortCtl 0xFF 0x04
  | .powerOff => InRow (encode .powerOff) .powerCtl 0xFF 0x00
  | .powerUp => InRow (encode .powerUp) .powerCtl 0xFF 0x01
  | .powerOn => InRow (encode .powerOn) .powerCtl 0xFF 0x01
  | .blksz16 blksz => InRow (encode (.blksz16 blksz)) .blkSz 0xFC00 0x0000
  | .stCmdComplete w => statusWordOf 0 w = true → InRow (encode (.stCmdComplete w)) .intStat 0x00000001 0x00000001
  | .stXferComplete w => statusWordOf 1 w = true → InRow (encode (.stXferComplete w)) .intStat 0x00000002 0x00000002
  | .stSpaceAvail w => statusWordOf 4 w = true → InRow (encode (.stSpaceAvail w)) .intStat 0x00000010 0x00000010
  | .stDataAvail w => statusWordOf 5 w = true → InRow (encode (.stDataAvail w)) .intStat 0x00000020 0x00000020
  | .stCardInsert w => statusWordOf 6 w = true → InRow (encode (.stCardInsert w)) .intStat 0x00000040 0x00000040
  | .stCardRemove w => statusWordOf 7 w = true → InRow (encode (.stCardRemove w)) .intStat 0x00000080 0x00000080
  | .stCardInt w => statusWordOf 8 w = true → InRow (encode (.stCardInt w)) .intStat 0x00000100 0x00000100
  | .stCmdTimeout w => statusWordOf 16 w = true → InRow (encode (.stCmdTimeout w)) .intStat 0x00010000 0x00010000
  | .stCmdCrc w => statusWordOf 17 w = true → InRow (encode (.stCmdCrc w)) .intStat 0x00020000 0x00020000
  | .stCmdEndBit w => statusWordOf 18 w = true → InRow (encode (.stCmdEndBit w)) .intStat 0x00040000 0x00040000
  | .stCmdIndex w => statusWordOf 19 w = true → InRow (encode (.stCmdIndex w)) .intStat 0x00080000 0x00080000
  | .stDataTimeout w => statusWordOf 20 w = true → InRow (encode (.stDataTimeout w)) .intStat 0x00100000 0x00100000
  | .stDataCrc w => statusWordOf 21 w = true → InRow (encode (.stDataCrc w)) .intStat 0x00200000 0x00200000
  | .stDataEndBit w => statusWordOf 22 w = true → InRow (encode (.stDataEndBit w)) .intStat 0x00400000 0x00400000
  | .stUnclassified w => unclassifiedWord w = true →
    (encode (.stUnclassified w)).fmt = .intStat ∧ firstWord (encode (.stUnclassified w)) &&& 0xFF80FE0C ≠ 0
  | .spuriousZero => InRow (encode .spuriousZero) .intStat 0xFFFFFFFF 0x00000000
  | .spuriousAllOnes => InRow (encode .spuriousAllOnes) .intStat 0xFFFFFFFF 0xFFFFFFFF
  | .shapeNone => InRow (encode .shapeNone) .shape 0x7 0
  | .shapeShort => InRow (encode .shapeShort) .shape 0x7 1
  | .shapeShortbusy => InRow (encode .shapeShortbusy) .shape 0x7 2
  | .shapeLong => InRow (encode .shapeLong) .shape 0x7 3
  | .shapeR3 => InRow (encode .shapeR3) .shape 0x7 4
  | .shapeInvalid code => 5 ≤ code.toNat → InRow (encode (.shapeInvalid code)) .shape 0x7 (code.setWidth 32)
  | .dirRead => InRow (encode .dirRead) .dir 0x1 0
  | .dirWrite => InRow (encode .dirWrite) .dir 0x1 1
  | .roleSbc => InRow (encode .roleSbc) .role 0x3 0
  | .rolePrimary => InRow (encode .rolePrimary) .role 0x3 1
  | .roleStop => InRow (encode .roleStop) .role 0x3 2
  | .opInvalid code => namedOp code = false → InRow (encode (.opInvalid code)) .op 0xFF (code.setWidth 32)

/-! ### Status words -/

theorem wordOf_bytes (w : Word) :
    wordOf (byteOf w 0) (byteOf w 1) (byteOf w 2) (byteOf w 3) = w := by
  have key : ∀ i, i < 32 → (w.extractLsb' 24 8 ++ w.extractLsb' 16 8 ++ w.extractLsb' 8 8
      ++ w.extractLsb' 0 8).getLsbD i = w.getLsbD i := by
    intro i hi
    simp only [BitVec.getLsbD_append, BitVec.getLsbD_extractLsb']
    interval_cases i <;> rfl
  exact BitVec.eq_of_getLsbD_eq (fun i hi => key i hi)

theorem firstWord_word (w : Word) : firstWord (wordEntry .intStat (bytesOfWord w)) = w :=
  wordOf_bytes w

/-- The lead bit of a status word is set in it. -/
theorem leadBit_set {w : Word} {n : Nat} (h : leadBit w = some n) : w.getLsbD n = true := by
  simpa using List.find?_some h

theorem status_row {w : Word} {n : Nat} (h : statusWordOf n w = true) {mask value : Word}
    (hm : mask = 1#32 <<< n) (hv : value = 1#32 <<< n) :
    InRow (wordEntry .intStat (bytesOfWord w)) .intStat mask value := by
  subst hm hv
  refine ⟨rfl, ?_⟩
  rw [firstWord_word]
  simp only [statusWordOf, Bool.and_eq_true, beq_iff_eq] at h
  have hb := leadBit_set h.2
  apply BitVec.eq_of_getLsbD_eq
  intro i hi
  by_cases hin : i = n
  · subst hin; simp [hb]
  · by_cases hlt : i < n
    · simp [hlt]
    · simp only [BitVec.getLsbD_and, BitVec.getLsbD_shiftLeft, BitVec.getLsbD_one]
      have : ¬ (i - n = 0) := by omega
      simp [this]

/-- A word with no classified bit that is not zero has an unclassified one. -/
theorem unclassified_bits {w : Word} (h : unclassifiedWord w = true) :
    w &&& 0xFF80FE0C ≠ 0 := by
  simp only [unclassifiedWord, Bool.and_eq_true, beq_iff_eq, bne_iff_ne, leadBit,
    List.find?_eq_none] at h
  obtain ⟨⟨h0, -⟩, hl⟩ := h
  intro hz
  apply h0
  apply BitVec.eq_of_getLsbD_eq
  intro i hi
  have hi' := congrArg (fun v => v.getLsbD i) hz
  have hc : ∀ n ∈ classifiedPositions, w.getLsbD n = false := fun n hn => by simpa using hl n hn
  simp only [classifiedPositions, List.forall_mem_cons] at hc
  clear hz h0
  have hm : ∀ n ∈ [2, 3, 9, 10, 11, 12, 13, 14, 15, 23, 24, 25, 26, 27, 28, 29, 30, 31],
      (0xFF80FE0C : Word).getLsbD n = true := by decide
  simp only [List.forall_mem_cons] at hm
  simp only [BitVec.getLsbD_and] at hi'
  interval_cases i <;> simp only [hm, hc, Bool.and_true] at hi' ⊢ <;> exact hi'

/-! ### One lemma per step -/

theorem attach : Statement (.attach) := ⟨rfl, rfl⟩

theorem detach : Statement (.detach) := ⟨rfl, rfl⟩

theorem submit (r : Request) : Statement (.submit r) := ⟨rfl, by
  show wordOf 0x03 0 0 0 &&& 0xFF = 0x03
  decide⟩

theorem irq : Statement (.irq) := ⟨rfl, rfl⟩

theorem wdog : Statement (.wdog) := ⟨rfl, rfl⟩

theorem workFinish : Statement (.workFinish) := ⟨rfl, rfl⟩

theorem workCard : Statement (.workCard) := ⟨rfl, rfl⟩

theorem notify : Statement (.notify) := ⟨rfl, rfl⟩

theorem setPower (mode : PowerMode) : Statement (.setPower mode) := ⟨rfl, by
  show wordOf 0x09 0 0 0 &&& 0xFF = 0x09
  decide⟩

theorem envRaise (m : Word) : Statement (.envRaise m) := ⟨rfl, by
  show wordOf 0x0A 0 0 0 &&& 0xFF = 0x0A
  decide⟩

theorem envCard (b : Bool) : Statement (.envCard b) := ⟨rfl, by
  show wordOf 0x0B 0 0 0 &&& 0xFF = 0x0B
  decide⟩

theorem issue (r : Role) : Statement (.issue r) := ⟨rfl, by
  show wordOf 0x10 0 0 0 &&& 0xFF = 0x10
  decide⟩

theorem arm (n : Nat) : Statement (.arm n) := ⟨rfl, by
  show wordOf 0x11 0 0 0 &&& 0xFF = 0x11
  decide⟩

theorem cancel : Statement (.cancel) := ⟨rfl, rfl⟩

theorem cmdIrq (mask : Word) : Statement (.cmdIrq mask) := ⟨rfl, by
  show wordOf 0x13 0 0 0 &&& 0xFF = 0x13
  decide⟩

theorem finishCmd : Statement (.finishCmd) := ⟨rfl, rfl⟩

theorem prepare : Statement (.prepare) := ⟨rfl, rfl⟩

theorem triggerBlock (size : Half) (dir : Dir) : Statement (.triggerBlock size dir) := ⟨rfl, by
  show wordOf 0x16 0 0 0 &&& 0xFF = 0x16
  decide⟩

theorem dataIrq (mask : Word) : Statement (.dataIrq mask) := ⟨rfl, by
  show wordOf 0x17 0 0 0 &&& 0xFF = 0x17
  decide⟩

theorem pio : Statement (.pio) := ⟨rfl, rfl⟩

theorem pioReadBlock : Statement (.pioReadBlock) := ⟨rfl, rfl⟩

theorem pioWriteBlock : Statement (.pioWriteBlock) := ⟨rfl, rfl⟩

theorem finishData (e : Err) : Statement (.finishData e) := ⟨rfl, by
  show wordOf 0x1B 0 0 0 &&& 0xFF = 0x1B
  decide⟩

theorem abortSeq (k : AbortKind) : Statement (.abortSeq k) := ⟨rfl, by
  show wordOf 0x1C 0 0 0 &&& 0xFF = 0x1C
  decide⟩

theorem schedule (w : WorkUnit) : Statement (.schedule w) := ⟨rfl, by
  show wordOf 0x1D 0 0 0 &&& 0xFF = 0x1D
  decide⟩

theorem log (k : LogKind) : Statement (.log k) := ⟨rfl, by
  show wordOf 0x1E 0 0 0 &&& 0xFF = 0x1E
  decide⟩

theorem read8 (off : Word) : Statement (.read8 off) := ⟨rfl, by
  show wordOf 0x20 0 0 0 &&& 0xFF = 0x20
  decide⟩

theorem read32 (off : Word) : Statement (.read32 off) := ⟨rfl, by
  show wordOf 0x21 0 0 0 &&& 0xFF = 0x21
  decide⟩

theorem write8 (off : Word) (v : Byte) : Statement (.write8 off v) := ⟨rfl, by
  show wordOf 0x22 0 0 0 &&& 0xFF = 0x22
  decide⟩

theorem write32 (off : Word) (v : Word) : Statement (.write32 off v) := ⟨rfl, by
  show wordOf 0x23 0 0 0 &&& 0xFF = 0x23
  decide⟩

theorem write16 (off : Word) (v : Half) : Statement (.write16 off v) := ⟨rfl, by
  show wordOf 0x24 0 0 0 &&& 0xFF = 0x24
  decide⟩

theorem cmdbyte (opcode : BitVec 6) : Statement (.cmdbyte opcode) := ⟨rfl, by
  show wordOf (1#2 ++ opcode) 0 0 0 &&& 0xC0 = 0x40
  revert opcode; decide⟩

theorem argword (arg : Word) : Statement (.argword arg) := ⟨rfl, by simp⟩

theorem rspctlNone : Statement (.rspctlNone) := ⟨rfl, rfl⟩

theorem rspctlShort : Statement (.rspctlShort) := ⟨rfl, rfl⟩

theorem rspctlShortbusy : Statement (.rspctlShortbusy) := ⟨rfl, rfl⟩

theorem rspctlLong : Statement (.rspctlLong) := ⟨rfl, rfl⟩

theorem rspctlR3 : Statement (.rspctlR3) := ⟨rfl, rfl⟩

theorem datactlRead : Statement (.datactlRead) := ⟨rfl, rfl⟩

theorem datactlWrite : Statement (.datactlWrite) := ⟨rfl, rfl⟩

theorem abortCmd : Statement (.abortCmd) := ⟨rfl, rfl⟩

theorem abortData : Statement (.abortData) := ⟨rfl, rfl⟩

theorem powerOff : Statement (.powerOff) := ⟨rfl, rfl⟩

theorem powerUp : Statement (.powerUp) := ⟨rfl, rfl⟩

theorem powerOn : Statement (.powerOn) := ⟨rfl, rfl⟩

theorem blksz16 (blksz : BitVec 10) : Statement (.blksz16 blksz) := ⟨rfl, by
  show wordOf (halfByteOf (0#6 ++ blksz) 0) (halfByteOf (0#6 ++ blksz) 1) 0 0 &&& 0xFC00 = 0x0000
  have key : ∀ i, i < 32 → ((0#8 ++ 0#8 ++ (0#6 ++ blksz).extractLsb' 8 8
      ++ (0#6 ++ blksz).extractLsb' 0 8) &&& (0xFC00#32)).getLsbD i = false := by
    intro i hi
    simp only [BitVec.getLsbD_and, BitVec.getLsbD_append, BitVec.getLsbD_extractLsb']
    interval_cases i <;> simp
  exact BitVec.eq_of_getLsbD_eq (fun i hi => (key i hi).trans (by simp))⟩

theorem stCmdComplete (w : Word) : Statement (.stCmdComplete w) := fun h => status_row h (by decide) (by decide)

theorem stXferComplete (w : Word) : Statement (.stXferComplete w) := fun h => status_row h (by decide) (by decide)

theorem stSpaceAvail (w : Word) : Statement (.stSpaceAvail w) := fun h => status_row h (by decide) (by decide)

theorem stDataAvail (w : Word) : Statement (.stDataAvail w) := fun h => status_row h (by decide) (by decide)

theorem stCardInsert (w : Word) : Statement (.stCardInsert w) := fun h => status_row h (by decide) (by decide)

theorem stCardRemove (w : Word) : Statement (.stCardRemove w) := fun h => status_row h (by decide) (by decide)

theorem stCardInt (w : Word) : Statement (.stCardInt w) := fun h => status_row h (by decide) (by decide)

theorem stCmdTimeout (w : Word) : Statement (.stCmdTimeout w) := fun h => status_row h (by decide) (by decide)

theorem stCmdCrc (w : Word) : Statement (.stCmdCrc w) := fun h => status_row h (by decide) (by decide)

theorem stCmdEndBit (w : Word) : Statement (.stCmdEndBit w) := fun h => status_row h (by decide) (by decide)

theorem stCmdIndex (w : Word) : Statement (.stCmdIndex w) := fun h => status_row h (by decide) (by decide)

theorem stDataTimeout (w : Word) : Statement (.stDataTimeout w) := fun h => status_row h (by decide) (by decide)

theorem stDataCrc (w : Word) : Statement (.stDataCrc w) := fun h => status_row h (by decide) (by decide)

theorem stDataEndBit (w : Word) : Statement (.stDataEndBit w) := fun h => status_row h (by decide) (by decide)

theorem stUnclassified (w : Word) : Statement (.stUnclassified w) := fun h =>
  ⟨rfl, by show firstWord (wordEntry .intStat (bytesOfWord w)) &&& _ ≠ 0; rw [firstWord_word]; exact unclassified_bits h⟩

theorem spuriousZero : Statement (.spuriousZero) := ⟨rfl, rfl⟩

theorem spuriousAllOnes : Statement (.spuriousAllOnes) := ⟨rfl, rfl⟩

theorem shapeNone : Statement (.shapeNone) := ⟨rfl, rfl⟩

theorem shapeShort : Statement (.shapeShort) := ⟨rfl, rfl⟩

theorem shapeShortbusy : Statement (.shapeShortbusy) := ⟨rfl, rfl⟩

theorem shapeLong : Statement (.shapeLong) := ⟨rfl, rfl⟩

theorem shapeR3 : Statement (.shapeR3) := ⟨rfl, rfl⟩

theorem shapeInvalid (code : BitVec 3) : Statement (.shapeInvalid code) := fun _ => ⟨rfl, by
  show wordOf (0#5 ++ code) 0 0 0 &&& 0x7 = code.setWidth 32
  revert code; decide⟩

theorem dirRead : Statement (.dirRead) := ⟨rfl, rfl⟩

theorem dirWrite : Statement (.dirWrite) := ⟨rfl, rfl⟩

theorem roleSbc : Statement (.roleSbc) := ⟨rfl, rfl⟩

theorem rolePrimary : Statement (.rolePrimary) := ⟨rfl, rfl⟩

theorem roleStop : Statement (.roleStop) := ⟨rfl, rfl⟩

theorem opInvalid (code : Byte) : Statement (.opInvalid code) := fun _ => ⟨rfl, by
  show wordOf code 0 0 0 &&& 0xFF = code.setWidth 32
  revert code; decide⟩

end Sys2Proof.Laws.RowBits
end

