-- ==== Sys2Proof/Laws/Runs.lean ====
section
/-! SUPPORT. What runs have to do with the machine: its own step is a step of a run, and fairness owes
turns to enabled steps only (R298). -/

namespace Sys2Proof.Machine

/-- With an empty agenda the machine's own step is a step of a run (log 11). -/
theorem agentStep_of_step {s t : State} (ha : s.agenda = []) (h : step s = .next t) :
    agentStep (Config.freeStep s.turns) s t := by
  refine ⟨s.answers, s.agenda, s.turns + 1, ?_⟩
  simpa [step, ha] using h

/-- What fairness owes a turn is enabled. -/
theorem enabled_of_owed {i : Instr} {s : State} (h : owed i s = true) : enabled i s = true := by
  cases i <;> simp_all [owed, enabled, irqLine]

end Sys2Proof.Machine
end

