-- ==== Sys2Proof/Tests/Slice0.lean ====
section
/-! SUPPORT. Tests. Expected results come from spec/95_test_vectors.md or, for encodings, from the tables
of spec/30_encoding.md, by hand. The last part shows, for each statement with hypotheses, a state and
operands that meet them. -/

namespace Sys2Proof.Tests

open Sys2Proof.Machine

/-! ## Well-formedness refuses -/

theorem test_arm_count_too_wide : (Instr.arm (2 ^ 32)).wellFormed = false := by decide

/-- A status word of another row, or of none: the lead bit decides the row (R94, log 14). -/
theorem test_status_word_of_another_row :
    (Instr.stCmdComplete 0x2).wellFormed = false ∧ (Instr.stXferComplete 0x3).wellFormed = false ∧
    (Instr.stSpaceAvail 0x20).wellFormed = false ∧ (Instr.stDataAvail 0x30).wellFormed = false ∧
    (Instr.stCardInsert 0x80).wellFormed = false ∧ (Instr.stCardRemove 0xC0).wellFormed = false ∧
    (Instr.stCardInt 0x101).wellFormed = false ∧ (Instr.stCmdTimeout 0).wellFormed = false ∧
    (Instr.stCmdCrc 0x30000).wellFormed = false ∧ (Instr.stCmdEndBit 0x20000).wellFormed = false ∧
    (Instr.stCmdIndex 0x40000).wellFormed = false ∧
    (Instr.stDataTimeout 0x80000).wellFormed = false ∧
    (Instr.stDataCrc 0x300000).wellFormed = false ∧
    (Instr.stDataEndBit 0x80000000).wellFormed = false := by decide

theorem test_unclassified_word_with_a_classified_bit :
    (Instr.stUnclassified 0x80000001).wellFormed = false ∧
    (Instr.stUnclassified 0).wellFormed = false := by decide

theorem test_known_shape_is_not_invalid : (Instr.shapeInvalid 4).wellFormed = false := by decide

theorem test_named_code_is_not_invalid : (Instr.opInvalid 0x1E).wellFormed = false := by decide

/-! ## Decoding, word by word from the tables of spec/30 -/

def read (f : Format) (bs : List Byte) : Except DecodeError Instr :=
  decode { fmt := f, bytes := bs, req := Request.blank }

/-- R99, R107. -/
theorem test_decode_top_level :
    read .op [0x01] = .ok .attach ∧ read .op [0x02] = .ok .detach ∧
    read .op [0x03] = .ok (.submit Request.blank) ∧ read .op [0x04] = .ok .irq ∧
    read .op [0x05] = .ok .wdog ∧ read .op [0x06] = .ok .workFinish ∧
    read .op [0x07] = .ok .workCard ∧ read .op [0x08] = .ok .notify ∧
    read .op [0x09, 0x02] = .ok (.setPower .on) ∧
    read .op [0x0A, 0x32, 0x00, 0x70, 0x80] = .ok (.envRaise 0x80700032) ∧
    read .op [0x0B, 0x01] = .ok (.envCard true) := ⟨rfl, rfl, rfl, rfl, rfl, rfl, rfl, rfl, rfl, rfl, rfl⟩

/-- R100. -/
theorem test_decode_sub_operations :
    read .op [0x10, 0x02] = .ok (.issue .stop) ∧
    read .op [0x11, 0x1F, 0, 0, 0] = .ok (.arm 31) ∧ read .op [0x12] = .ok .cancel ∧
    read .op [0x13, 0x01, 0, 0, 0] = .ok (.cmdIrq 0x1) ∧ read .op [0x14] = .ok .finishCmd ∧
    read .op [0x15] = .ok .prepare ∧
    read .op [0x16, 0x0A, 0x00, 0x01] = .ok (.triggerBlock 10 .write) ∧
    read .op [0x17, 0x22, 0, 0, 0] = .ok (.dataIrq 0x22) ∧ read .op [0x18] = .ok .pio ∧
    read .op [0x19] = .ok .pioReadBlock ∧ read .op [0x1A] = .ok .pioWriteBlock ∧
    read .op [0x1B, 0x02] = .ok (.finishData .protocolViolation) ∧
    read .op [0x1C, 0x01] = .ok (.abortSeq .data) ∧ read .op [0x1D, 0x00] = .ok (.schedule .finish) ∧
    read .op [0x1E, 0x05, 0x00, 0x01, 0, 0] = .ok (.log (.cardIntBits 0x100)) :=
  ⟨rfl, rfl, rfl, rfl, rfl, rfl, rfl, rfl, rfl, rfl, rfl, rfl, rfl, rfl, rfl⟩

/-- R100. -/
theorem test_decode_accessors :
    read .op [0x20, 0x0B, 0, 0, 0] = .ok (.read8 0x0B) ∧
    read .op [0x21, 0x30, 0, 0, 0] = .ok (.read32 0x30) ∧
    read .op [0x22, 0x08, 0, 0, 0, 0x52] = .ok (.write8 0x08 0x52) ∧
    read .op [0x23, 0x00, 0, 0, 0, 0x78, 0x56, 0x34, 0x12] = .ok (.write32 0 0x12345678) ∧
    read .op [0x24, 0x10, 0, 0, 0, 0x00, 0x02] = .ok (.write16 0x10 512) :=
  ⟨rfl, rfl, rfl, rfl, rfl⟩

/-- R87 to R93; spec/95 section 2.1. -/
theorem test_decode_register_encodings :
    read .cmdByte [0x40] = .ok (.cmdbyte 0) ∧ read .cmdByte [0x7F] = .ok (.cmdbyte 63) ∧
    read .argWord [0x12, 0x34, 0x56, 0x78] = .ok (.argword 0x12345678) ∧
    read .rspCtl [0x00] = .ok .rspctlNone ∧ read .rspCtl [0x01] = .ok .rspctlShort ∧
    read .rspCtl [0x03] = .ok .rspctlShortbusy ∧ read .rspCtl [0x04] = .ok .rspctlLong ∧
    read .rspCtl [0x08] = .ok .rspctlR3 ∧ read .rspCtl [0x02] = .error (.badWord .rspCtl) ∧
    read .dataCtl [0x81] = .ok .datactlRead ∧ read .dataCtl [0x82] = .ok .datactlWrite ∧
    read .abortCtl [0x02] = .ok .abortCmd ∧ read .abortCtl [0x04] = .ok .abortData ∧
    read .powerCtl [0x00] = .ok .powerOff ∧ read .powerCtl [0x01, 0] = .ok .powerUp ∧
    read .powerCtl [0x01, 1] = .ok .powerOn ∧ read .blkSz [0x0A, 0x00] = .ok (.blksz16 10) ∧
    read .blkSz [0x00, 0x04] = .error (.badWord .blkSz) :=
  ⟨rfl, rfl, rfl, rfl, rfl, rfl, rfl, rfl, rfl, rfl, rfl, rfl, rfl, rfl, rfl, rfl, rfl, rfl⟩

/-- R31, R94, R104, R192. -/
theorem test_decode_status_words :
    read .intStat [0x01, 0, 0, 0] = .ok (.stCmdComplete 0x1) ∧
    read .intStat [0x02, 0, 0, 0] = .ok (.stXferComplete 0x2) ∧
    read .intStat [0x10, 0, 0, 0] = .ok (.stSpaceAvail 0x10) ∧
    read .intStat [0x20, 0, 0, 0] = .ok (.stDataAvail 0x20) ∧
    read .intStat [0x40, 0, 0, 0] = .ok (.stCardInsert 0x40) ∧
    read .intStat [0x80, 0, 0, 0] = .ok (.stCardRemove 0x80) ∧
    read .intStat [0, 0x01, 0, 0] = .ok (.stCardInt 0x100) ∧
    read .intStat [0, 0, 0x01, 0] = .ok (.stCmdTimeout 0x10000) ∧
    read .intStat [0, 0, 0x02, 0] = .ok (.stCmdCrc 0x20000) ∧
    read .intStat [0, 0, 0x04, 0] = .ok (.stCmdEndBit 0x40000) ∧
    read .intStat [0, 0, 0x08, 0] = .ok (.stCmdIndex 0x80000) ∧
    read .intStat [0, 0, 0x10, 0] = .ok (.stDataTimeout 0x100000) ∧
    read .intStat [0, 0, 0x20, 0] = .ok (.stDataCrc 0x200000) ∧
    read .intStat [0, 0, 0x40, 0] = .ok (.stDataEndBit 0x400000) ∧
    read .intStat [0x04, 0, 0x80, 0] = .ok (.stUnclassified 0x800004) ∧
    read .intStat [0, 0, 0, 0] = .ok .spuriousZero ∧
    read .intStat [0xFF, 0xFF, 0xFF, 0xFF] = .ok .spuriousAllOnes :=
  ⟨rfl, rfl, rfl, rfl, rfl, rfl, rfl, rfl, rfl, rfl, rfl, rfl, rfl, rfl, rfl, rfl, rfl⟩

/-- R97, R98. -/
theorem test_decode_field_codes :
    read .shape [0] = .ok .shapeNone ∧ read .shape [1] = .ok .shapeShort ∧
    read .shape [2] = .ok .shapeShortbusy ∧ read .shape [3] = .ok .shapeLong ∧
    read .shape [4] = .ok .shapeR3 ∧ read .shape [7] = .ok (.shapeInvalid 7) ∧
    read .dir [0] = .ok .dirRead ∧ read .dir [1] = .ok .dirWrite ∧ read .role [0] = .ok .roleSbc ∧
    read .role [1] = .ok .rolePrimary ∧ read .role [2] = .ok .roleStop :=
  ⟨rfl, rfl, rfl, rfl, rfl, rfl, rfl, rfl, rfl, rfl, rfl⟩

/-- R111; spec/95 section 2.1: OP bytes 0x0C, 0x1F, 0x25, 0xFF are invalid. -/
theorem test_decode_invalid_codes :
    read .op [0x0C] = .ok (.opInvalid 0x0C) ∧ read .op [0x1F] = .ok (.opInvalid 0x1F) ∧
    read .op [0x25] = .ok (.opInvalid 0x25) ∧ read .op [0xFF] = .ok (.opInvalid 0xFF) :=
  ⟨rfl, rfl, rfl, rfl⟩

/-! ## States -/

/-- The state after reset with an empty trace. -/
def quiet : State := { State.reset with trace := [] }

def shortCmd : Command :=
  { opcode := 13, arg := 0x00010000, shapeCode := 1, timeoutMs := 0, role := .primary }

def eraseCmd : Command :=
  { opcode := 38, arg := 0, shapeCode := 2, timeoutMs := 30000, role := .primary }

def longCmd : Command :=
  { opcode := 9, arg := 0x00010000, shapeCode := 3, timeoutMs := 0, role := .primary }

def stopCmd : Command :=
  { opcode := 12, arg := 0, shapeCode := 2, timeoutMs := 0, role := .stop }

def sbcCmd : Command :=
  { opcode := 23, arg := 2, shapeCode := 1, timeoutMs := 0, role := .sbc }

/-- Two blocks of 6 bytes over 12 bytes at 0x1000 (spec/95 section 2.5). -/
def readData : Data := { dir := .read, blksz := 6, blocks := 2, sg := [⟨0x1000, 12⟩] }

/-- The crossing list of spec/95 section 2.5. -/
def writeData : Data :=
  { dir := .write, blksz := 6, blocks := 1, sg := [⟨0x1000, 1⟩, ⟨0x2000, 0⟩, ⟨0x3000, 2⟩, ⟨0x4000, 5⟩] }

/-- A data-less primary command outstanding. -/
def waiting (c : Command) : State :=
  { quiet with req := some { cmd := some c }, curCmd := some .primary, timer := some 10 }

/-- A Data phase attached, its command finished. -/
def moving (d : Data) (left : Nat) : State :=
  { quiet with
    req := some { cmd := some shortCmd, data := some d }
    curData := true
    cursor := { blocksLeft := left }
    timer := some 10 }

/-- A Request with an SBC command, a primary with data and a stop command. -/
def full : Request :=
  { cmd := some shortCmd, sbc := some sbcCmd, data := some { readData with stop := some stopCmd } }

/-- The word w raised and latched. -/
def raised (w : Word) (s : State) : State := { s with win := { s.win with intStatus := w } }

/-- The environment's next draws. -/
def drawing (ws : List Word) (s : State) : State := { s with answers := ws }

/-- Does an answer give a next state with this property? -/
def gives (a : Answer) (f : State → Bool) : Bool :=
  match a with
  | .next t => f t
  | _ => false

/-- Does a step append exactly these events? -/
def traces (i : Instr) (s : State) (es : List Event) : Bool :=
  gives (exec i s) (fun t => t.trace == s.trace ++ es)

/-- Does a step end in this fault? -/
def faults (i : Instr) (s : State) (r : FaultReason) : Bool :=
  gives (exec i s) (fun t => t.fault == some r)

/-! ## One step: spec/95 sections 2.2 to 2.8 -/

/-- Section 2.2. -/
theorem test_write32_status_clears_written_ones :
    gives (exec (.write32 0 0x20) (raised 0x21 quiet)) (fun t => t.win.intStatus == 0x1) ∧
    gives (exec (.write32 0 0x2) (raised 0x1 quiet)) (fun t => t.win.intStatus == 0x1) := by decide

/-- Section 2.2: CMD is write-only. -/
theorem test_read8_of_cmd_faults : faults (.read8 0x08) quiet .windowAccess := by decide

/-- R115's example. -/
theorem test_read8_abort : traces (.read8 0x0B) (drawing [0] quiet) [.r8 0x0B 0x00] := by decide

/-- Section 2.2: RESP0 is read-only; 0x41 lies outside; ARG is 32 bits wide. -/
theorem test_window_faults :
    faults (.write32 0x20 0) quiet .windowAccess ∧ faults (.read32 0x41) quiet .windowAccess ∧
    faults (.write8 0x0C 0) quiet .windowAccess ∧
    faults (.write16 0x10 1) { quiet with attached := false } .windowAccess := by decide

/-- Section 2.2: two reads of DATA are two draws. -/
theorem test_read32_data_consumes :
    gives (exec (.read32 0x30) (drawing [5, 6] quiet)) (fun t => t.answers == [6]) := by decide

/-- R119's example. -/
theorem test_write16_blksize : traces (.write16 0x10 0x0040) quiet [.w16 0x10 0x0040] := by decide

/-- R117's example. -/
theorem test_write8_cmd : traces (.write8 0x08 0x52) quiet [.w8 0x08 0x52] := by decide

/-- Section 2.1. -/
theorem test_encodings :
    traces (.cmdbyte 63) quiet [.w8 0x08 0x7F] ∧
    traces (.argword 0x12345678) quiet [.w32 0x0C 0x78563412] ∧
    traces .rspctlNone quiet [.w8 0x09 0x00] ∧ traces .rspctlShort quiet [.w8 0x09 0x01] ∧
    traces .rspctlShortbusy quiet [.w8 0x09 0x03] ∧ traces .rspctlLong quiet [.w8 0x09 0x04] ∧
    traces .rspctlR3 quiet [.w8 0x09 0x08] ∧ traces .datactlRead quiet [.w8 0x0A 0x81] ∧
    traces .datactlWrite quiet [.w8 0x0A 0x82] ∧ traces (.blksz16 512) quiet [.w16 0x10 0x0200] ∧
    traces .powerOff quiet [.w8 0x18 0x00] ∧ traces .powerUp quiet [.w8 0x18 0x01] ∧
    traces .powerOn quiet [.w8 0x18 0x01] := by decide

/-- Sections 2.1 and R97, R98: the codes act as the lines that take them. -/
theorem test_field_codes :
    traces .shapeNone quiet [.w8 0x09 0x00] ∧ traces .shapeShort quiet [.w8 0x09 0x01] ∧
    traces .shapeShortbusy quiet [.w8 0x09 0x03] ∧ traces .shapeLong quiet [.w8 0x09 0x04] ∧
    traces .shapeR3 quiet [.w8 0x09 0x08] ∧ faults (.shapeInvalid 5) quiet .configShape ∧
    traces .dirRead quiet [.w8 0x0A 0x81] ∧ traces .dirWrite quiet [.w8 0x0A 0x82] := by decide

/-- R126. -/
theorem test_role_codes_take_the_slot :
    gives (exec .roleSbc { quiet with req := some full }) (fun t => t.curCmd == some .sbc) ∧
    gives (exec .rolePrimary { quiet with req := some full }) (fun t => t.curCmd == some .primary) ∧
    gives (exec .roleStop { quiet with req := some full }) (fun t => t.curCmd == some .stop) := by
  decide

/-- Section 2.3: timeout units at their boundaries. -/
theorem test_timeout_units :
    timeoutUnits false 9000 = 10 ∧ timeoutUnits false 9001 = 11 ∧ timeoutUnits false 10000 = 11 ∧
    timeoutUnits false 10001 = 12 ∧ timeoutUnits false 30000 = 31 ∧ timeoutUnits true 30000 = 10 := by
  decide

/-- Section 2.3: issue traces of the LONG command and of the stop command. -/
theorem test_issue_traces :
    traces (.issue .primary) (waiting longCmd)
      [.arm 10, .w8 0x08 0x49, .w32 0x0C 0x00000100, .w8 0x09 0x04] ∧
    traces (.issue .stop) { quiet with req := some full }
      [.arm 10, .w8 0x08 0x4C, .w32 0x0C 0, .w8 0x09 0x03] := by decide

/-- Section 2.9: size faults come before opcode and shape faults. -/
theorem test_issue_fault_priority :
    gives (exec (.issue .primary) { quiet with req := some {
        cmd := some { shortCmd with opcode := 64, shapeCode := 5 }
        data := some { readData with blksz := 513, blocks := 1 } } })
      (fun t => t.trace == [.arm 10, .fault .configSize]) := by decide

/-- R129, R130, R41, R123. -/
theorem test_timer_and_flags :
    gives (exec (.arm 31) (waiting eraseCmd)) (fun t => t.timer == some 31) ∧
    gives (exec .cancel (waiting eraseCmd)) (fun t => t.timer == none) ∧
    gives (exec (.schedule .card) quiet) (fun t => t.cardPend && !t.finishPend) ∧
    traces (.log .abortTimeout) quiet [.log .abortTimeout] := by decide

/-- Section 2.3: mask 0x00010001 is a Timeout with no capture; 0x00080001 a ProtocolViolation. -/
theorem test_cmd_irq_errors :
    gives (exec (.cmdIrq 0x00010001) (waiting shortCmd)) (fun t =>
      t.req == some { cmd := some { shortCmd with error := .timeout } } && t.finishPend
        && t.curCmd == some .primary && t.trace == []) ∧
    gives (exec (.cmdIrq 0x00080001) (waiting shortCmd)) (fun t =>
      t.req == some { cmd := some { shortCmd with error := .protocolViolation } }) := by decide

/-- Section 2.3: the SBC response issues the primary. -/
theorem test_cmd_irq_sbc_issues_primary :
    traces (.cmdIrq 1) { drawing [0x900] quiet with
        req := some { cmd := some shortCmd, sbc := some sbcCmd }, curCmd := some .sbc }
      [.r32 0x20 0x900, .arm 10, .w8 0x08 0x4D, .w32 0x0C 0x00000100, .w8 0x09 0x01] := by decide

/-- Section 2.3: capture of a long response. -/
theorem test_finish_cmd_long :
    gives (exec .finishCmd
        (drawing [0x11223344, 0x55667788, 0x99AABBCC, 0xDDEEFF00] (waiting longCmd))) (fun t =>
      t.req == some { cmd := some { longCmd with resp :=
        ⟨some 0x44332211, some 0x88776655, some 0xCCBBAA99, some 0x00FFEEDD⟩ } }) := by decide

/-- R102: a correction given by its values that moves words, not bytes. -/
theorem test_finish_cmd_listed_fix :
    gives (exec .finishCmd { drawing [1, 2, 3, 4] (waiting longCmd) with
        params := { quiet.params with longRespFix := .listed [(⟨1, 2, 3, 4⟩, ⟨4, 3, 2, 1⟩)] } })
      (fun t => t.req == some { cmd := some { longCmd with resp :=
        ⟨some 4, some 3, some 2, some 1⟩ } }) := by decide

/-- Section 2.3: with the data early, finish_command finishes the Data phase. -/
theorem test_finish_cmd_early :
    gives (exec .finishCmd { drawing [0x900] (moving readData 0) with
        curCmd := some .primary, dataEarly := true }) (fun t =>
      !t.curData && !t.dataEarly && t.finishPend &&
        (dataOf t == some { readData with bytesXfered := 12 })) := by decide

/-- Section 2.4: the size table. -/
theorem test_prepare_sizes :
    gives (exec .prepare { quiet with req := some {
      cmd := some shortCmd
      data := some { readData with blksz := 512, blocks := 1024, sg := [⟨0, 524288⟩] } } })
      (fun t => t.cursor.blocksLeft == 1024 && t.fault == none) ∧
    faults .prepare { quiet with req := some {
      cmd := some shortCmd, data := some { readData with blksz := 512, blocks := 1025 } } }
      .configSize := by decide

/-- Section 2.4: a list one byte short. -/
theorem test_prepare_list_short :
    faults .prepare { quiet with req := some { cmd := some shortCmd, data := some { readData with
      blksz := 64, blocks := 2, sg := [⟨0, 127⟩] } } } .configSgShort := by decide

/-- R152's example. -/
theorem test_trigger_block :
    traces (.triggerBlock 512 .read) quiet [.w16 0x10 0x0200, .w8 0x0A 0x81] := by decide

/-- Section 2.4: mask 0x22 with one block left reads it and finishes; with two it starts the next. -/
theorem test_data_irq_block_and_complete :
    gives (exec (.dataIrq 0x22) (drawing [0x04030201, 0x08070605] (moving readData 1))) (fun t =>
      t.finishPend && !t.curData && Memory.read t.mem 0x1005 == 0x06) ∧
    gives (exec (.dataIrq 0x22) (drawing [0x04030201, 0x08070605] (moving readData 2))) (fun t =>
      t.cursor.blocksLeft == 1 && t.win.blksize == 6 && t.win.dataCtrl == 0x81) := by decide

/-- R156 as written moves a block that R287 leaves where it is; dataEarly decides only there. -/
theorem test_data_irq_after_early :
    let s (e : EarlyBlocks) : State := { drawing [0x04030201, 0x08070605] (moving readData 1) with
      curCmd := some .primary, dataEarly := true, params := { quiet.params with earlyBlocks := e } }
    gives (exec (.dataIrq 0x20) (s .moved)) (fun t => t.cursor.blocksLeft == 0) ∧
    traces (.dataIrq 0x20) (s .left) [] ∧
    gives (exec (.dataIrq 0x20) { s .left with dataEarly := false })
      (fun t => t.cursor.blocksLeft == 0) := by decide

/-- Section 2.4: 0x00100002 with a busy command outstanding is its busy end; error bits ignored. -/
theorem test_data_irq_busy_end :
    traces (.dataIrq 0x00100002) (drawing [0x900] (waiting eraseCmd)) [.r32 0x20 0x900] := by decide

/-- Section 2.4: finish after an error aborts twice, then issues the stop. -/
theorem test_finish_data_stop :
    traces (.finishData .timeout)
      (drawing [0, 0] (moving { readData with stop := some stopCmd } 2))
      [.w8 0x0B 0x02, .r8 0x0B 0, .w8 0x0B 0x04, .r8 0x0B 0,
        .arm 10, .w8 0x08 0x4C, .w32 0x0C 0, .w8 0x09 0x03] := by decide

/-- Section 2.4: byte count. -/
theorem test_finish_data_count :
    gives (exec (.finishData .ok) (moving { readData with blksz := 512, blocks := 4 } 0))
      (fun t => (dataOf t).map (fun d => d.bytesXfered) == some 2048) := by decide

/-- Section 2.5: the first block of two; the second word's high lanes are discarded. -/
theorem test_pio_read_block :
    gives (exec .pioReadBlock (drawing [0x04030201, 0x08070605] (moving readData 2))) (fun t =>
      t.mem == [(0x1000, 1), (0x1001, 2), (0x1002, 3), (0x1003, 4), (0x1004, 5), (0x1005, 6)]
        && t.cursor.sgOff == 6) := by decide

/-- Section 2.5: the second block starts a new word. -/
theorem test_pio_second_block :
    gives (exec .pio { drawing [0x0C0B0A09, 0x100F0E0D] (moving readData 1) with
        cursor := { blocksLeft := 1, sgOff := 6 } }) (fun t =>
      Memory.read t.mem 0x1006 == 0x09 && Memory.read t.mem 0x100B == 0x0E
        && t.cursor.blocksLeft == 0) := by decide

/-- Section 2.4: no block left, no access. -/
theorem test_pio_no_block_left : traces .pio (moving readData 0) [] := by decide

/-- Section 2.5: the crossing of a zero-length entry. -/
theorem test_pio_write_block :
    traces .pioWriteBlock { moving writeData 1 with mem := [(0x1000, 0xA1), (0x3000, 0xB1),
        (0x3001, 0xB2), (0x4000, 0xC1), (0x4001, 0xC2), (0x4002, 0xC3)] }
      [.mr 0x1000 0xA1, .mr 0x3000 0xB1, .mr 0x3001 0xB2, .mr 0x4000 0xC1, .w32 0x30 0xC1B2B1A1,
        .mr 0x4001 0xC2, .mr 0x4002 0xC3, .w32 0x30 0x0000C3C2] := by decide

/-- Section 2.6. -/
theorem test_irq_rest_bits :
    traces .irq (raised 0x80000101 quiet)
      [.r32 0 0x80000101, .w32 0 0x1, .log .spuriousCmd, .w32 0 0x80000100,
        .log (.cardIntBits 0x100), .log (.unclassifiedBits 0x80000000)] := by decide

/-- Section 2.6, R202: a command error and a data bit in one word. -/
theorem test_irq_error_and_data :
    gives (exec .irq (raised 0x00020020 { drawing [0x04030201, 0x08070605] (moving readData 2) with
        curCmd := some .primary })) (fun t =>
      t.finishPend && t.curCmd == some .primary && t.cursor.blocksLeft == 1
        && t.win.intStatus == 0) := by decide

/-- Section 2.6. -/
theorem test_spurious_words :
    traces .spuriousZero quiet [.r32 0 0] ∧
    traces .spuriousAllOnes quiet [.r32 0 0xFFFFFFFF] ∧
    traces .irq (raised 0xFFFFFFFF quiet) [.r32 0 0xFFFFFFFF] := by decide

/-- Section 2.6 and S4. -/
theorem test_card_words :
    traces (.stCardInsert 0x40) quiet [.r32 0 0x40, .w32 0 0x40] ∧
    gives (exec (.stCardRemove 0x80) quiet) (fun t => t.cardPend) ∧
    traces (.stCardInt 0x100) quiet [.r32 0 0x100, .w32 0 0x100, .log (.cardIntBits 0x100)] ∧
    traces (.stUnclassified 0x80000000) quiet
      [.r32 0 0x80000000, .w32 0 0x80000000, .log (.unclassifiedBits 0x80000000)] := by decide

/-- Sections 2.3 and P1. -/
theorem test_command_words :
    traces (.stCmdComplete 1) (drawing [0x900] (waiting shortCmd))
      [.r32 0 0x1, .w32 0 0x1, .r32 0x20 0x900] ∧
    gives (exec (.stCmdTimeout 0x30000) (waiting shortCmd)) (fun t =>
      t.req == some { cmd := some { shortCmd with error := .timeout } }) ∧
    gives (exec (.stCmdCrc 0x20000) (waiting shortCmd)) (fun t =>
      t.req == some { cmd := some { shortCmd with error := .protocolViolation } }) ∧
    gives (exec (.stCmdEndBit 0x40000) (waiting shortCmd)) (fun t => t.finishPend) ∧
    gives (exec (.stCmdIndex 0x80000) (waiting shortCmd)) (fun t => t.finishPend) := by decide

/-- Section 2.4 and P3. -/
theorem test_data_words :
    gives (exec (.stXferComplete 2) (moving readData 0)) (fun t =>
      t.finishPend && (dataOf t == some { readData with bytesXfered := 12 })) ∧
    gives (exec (.stSpaceAvail 0x10) (drawing [1, 2] (moving readData 2))) (fun t =>
      t.cursor.blocksLeft == 1) ∧
    gives (exec (.stDataAvail 0x20) (drawing [1, 2] (moving readData 2))) (fun t =>
      t.cursor.blocksLeft == 1) ∧
    gives (exec (.stDataTimeout 0x00300000) (moving readData 1)) (fun t =>
      dataOf t == some { readData with error := .timeout }) ∧
    gives (exec (.stDataCrc 0x00200000) (moving readData 2)) (fun t =>
      dataOf t == some { readData with error := .protocolViolation }) ∧
    gives (exec (.stDataEndBit 0x00400000) (moving readData 2)) (fun t => t.finishPend) := by decide

/-- Section 2.7: draws 0x06, 0x04 end the cmd-abort's poll at the second. -/
theorem test_abort_polls :
    traces (.abortSeq .cmd) (drawing [0x06, 0x04] quiet)
      [.w8 0x0B 0x02, .r8 0x0B 0x06, .r8 0x0B 0x04] ∧
    traces .abortCmd (drawing [0x02, 0x02, 0x00] quiet)
      [.w8 0x0B 0x02, .r8 0x0B 0x02, .r8 0x0B 0x02, .r8 0x0B 0x00] ∧
    traces .abortData (drawing [0] quiet) [.w8 0x0B 0x04, .r8 0x0B 0x00] := by decide

/-- Section 2.7: which Requests abort. -/
theorem test_needs_abort :
    needsAbort { full with cmd := some { shortCmd with error := .noMedium } } = false ∧
    needsAbort { full with cmd := some { shortCmd with error := .timeout } } = true ∧
    needsAbort { full with sbc := some { sbcCmd with error := .timeout } } = false ∧
    needsAbort { full with data := some { readData with
      stop := some { stopCmd with error := .timeout } } } = true := by decide

/-- P1 step 5, and section 2.7's run with no Request. -/
theorem test_work_finish :
    gives (exec .workFinish { waiting shortCmd with finishPend := true, curCmd := none }) (fun t =>
      t.trace == [.cancel] && t.req == none && t.notifyQ == [{ cmd := some shortCmd }]
        && t.timer == none) ∧
    traces .workFinish { quiet with finishPend := true } [] := by decide

/-- R236: an error already there at submission is a breach; what is notified is then free, and the
issuer's own fields are as they were. -/
theorem test_breach_of_duty :
    gives (exec (.submit { cmd := some { shortCmd with error := .timeout } }) (drawing [1] quiet))
      (fun t => t.dutyBroken) ∧
    gives (exec (.submit { cmd := some shortCmd }) (drawing [1] { quiet with dutyBroken := true }))
      (fun t => !t.dutyBroken) ∧
    exec .workFinish { waiting shortCmd with finishPend := true, dutyBroken := true } = .next { quiet with
      trace := [.cancel]
      breaches := 1
      notifyQ := [{ cmd := some { shortCmd with
        resp := (Config.freeResult 0).cmd.resp, error := (Config.freeResult 0).cmd.error } }] } :=
  ⟨by decide, by decide, rfl⟩

/-- S4. -/
theorem test_work_card : traces .workCard { quiet with cardPend := true } [.notifyPresence] := by
  decide

/-- P5 step 3, and section 2.7: with the slot empty the primary takes the Timeout. -/
theorem test_wdog :
    gives (exec .wdog (waiting eraseCmd)) (fun t => t.timer == none && t.finishPend && t.trace == []
      && t.req == some { cmd := some { eraseCmd with error := .timeout } }) ∧
    gives (exec .wdog { waiting shortCmd with curCmd := none, finishPend := true }) (fun t =>
      t.req == some { cmd := some { shortCmd with error := .timeout } }) := by decide

/-- P1 step 6. -/
theorem test_notify :
    traces .notify { quiet with notifyQ := [full, { cmd := some shortCmd }] } [.notifyComplete full] := by
  decide

/-- P1 step 2. -/
theorem test_submit :
    traces (.submit { cmd := some shortCmd }) (drawing [1] quiet)
      [.r32 0x14 0x1, .arm 10, .w8 0x08 0x4D, .w32 0x0C 0x00000100, .w8 0x09 0x01] := by decide

/-- P6 step 3, and section 2.8. -/
theorem test_submit_turned_away :
    gives (exec (.submit { cmd := some shortCmd })
        (drawing [0] quiet)) (fun t =>
      t.trace == [.r32 0x14 0] && t.finishPend
        && t.req == some { cmd := some { shortCmd with error := .noMedium } }) ∧
    faults (.submit full) (waiting shortCmd) .busyViolation ∧
    faults (.submit { full with cmd := none }) quiet .configNoCommand ∧
    faults (.submit full) { quiet with attached := false } .notAttached := by decide

/-- Section 2.8. -/
theorem test_attach_detach :
    traces .attach State.beforeAttach [.w32 0x04 0x007F01F3] ∧
    traces .detach quiet [.w32 0x04 0] ∧
    exec .detach { quiet with cardPend := true } = .refused (.notEnabled "DETACH") :=
  ⟨by decide, by decide, rfl⟩

/-- Section 2.8. -/
theorem test_set_power :
    traces (.setPower .up) quiet [.w8 0x18 0x01] ∧
    gives (exec (.setPower .off) quiet) (fun t => t.power == .off && t.win.power == 0) := by decide

/-- R240's example; R241. -/
theorem test_environment :
    gives (exec (.envRaise 1) quiet) (fun t => t.win.intStatus == 1 && t.trace == [] && irqLine t) ∧
    gives (exec (.envCard false) quiet) (fun t => t.win.present == 0) := by decide

/-- R116 draws PRESENT whole; R241's example needs the card bit that ENV_CARD left. -/
theorem test_present_reads :
    let slot := { quiet.params with presentRead := .slot }
    traces (.read32 0x14) (drawing [0x80000000] quiet) [.r32 0x14 0x80000000] ∧
    traces (.read32 0x14) { drawing [0x80000000] quiet with params := slot }
      [.r32 0x14 0x80000001] ∧
    gives (exec (.envCard false) { drawing [1] quiet with params := slot }) (fun t =>
      gives (exec (.submit { cmd := some shortCmd }) t) (fun u => u.finishPend)) := by decide

/-- R254's table. -/
theorem test_fault_codes :
    [FaultReason.windowAccess, .configOpcode, .configShape, .configSize, .configSgShort, .configSgRange,
      .configNoCommand, .busyViolation, .notAttached].map FaultReason.code =
      [1, 2, 3, 4, 5, 6, 7, 8, 9] := by decide

/-- Section 2.9: after a fault no step runs. -/
theorem test_nothing_after_a_fault :
    exec (.envRaise 1) { quiet with fault := some .configSize } = .fault (.halted .configSize) := rfl

/-- R111. -/
theorem test_invalid_code_refused : exec (.opInvalid 0x0C) quiet = .refused (.invalidOp 0x0C) := rfl

/-- R107: the agenda's first entry runs. -/
theorem test_step_runs_the_agenda :
    gives (step { quiet with agenda := [encode (.envRaise 1), encode .irq] }) (fun t =>
      t.win.intStatus == 1 && t.agenda == [encode .irq]) := by decide

/-! ## Witnesses: for each statement with hypotheses, a state and operands that meet them -/

theorem witness_DecodeEncode : (Instr.arm (2 ^ 32 - 1)).wellFormed = true := by decide

theorem witness_EncodeDecode : read .shape [7] = .ok (.shapeInvalid 7) := rfl

theorem witness_OpCodesTotal :
    namedOp 0x0C = false ∧ namedOp 0x0B = true ∧ namedOp 0x0F = false ∧ namedOp 0x10 = true ∧
    namedOp 0x1E = true ∧ namedOp 0x1F = false ∧ namedOp 0x24 = true ∧ namedOp 0x25 = false ∧
    quiet.fault = none := by decide

theorem witness_StepRuns :
    ({ quiet with agenda := [encode .irq] } : State).agenda = encode .irq :: [] ∧
    decode (encode .irq) = .ok .irq ∧ quiet.fault = none ∧
    decode (wordEntry .rspCtl [0x02]) = .error (.badWord .rspCtl) ∧ quiet.agenda = [] ∧
    Instr.topLevel .irq = true ∧ (∀ m, exec .irq quiet ≠ .refused (.notEnabled m)) ∧
    exec .wdog quiet = .refused (.notEnabled "WDOG") ∧ Instr.topLevel .pio = false :=
  ⟨rfl, rfl, rfl, rfl, rfl, rfl, (by intro m h; exact absurd h (by rintro ⟨⟩)), rfl, rfl⟩

theorem witness_FaultEndsEverything :
    (∃ s : State, s.fault = some .configShape) ∧ (∃ t, exec .irq quiet = .next t) ∧
    ∃ t, exec (.shapeInvalid 5) quiet = .next t ∧ t.fault = some .configShape :=
  ⟨⟨{ quiet with fault := some .configShape }, rfl⟩, ⟨_, rfl⟩, ⟨_, rfl, rfl⟩⟩

theorem witness_EnabledExactly :
    quiet.fault = none ∧ enabled .wdog quiet = false ∧ enabled .irq quiet = true := by decide

/-- The invariant's states: waiting for a response, moving data, completing, detached. -/
theorem witness_Inv :
    invOk (waiting shortCmd) = true ∧ invOk (moving readData 2) = true ∧
    invOk { moving readData 1 with curCmd := some .primary, dataEarly := true } = true ∧
    invOk { waiting shortCmd with finishPend := true } = true ∧ invOk State.beforeAttach = true := by
  decide

theorem witness_WholeStepsSafe :
    invOk (moving readData 2) = true ∧ wholeStep .irq = true ∧ wholeStep (.stDataAvail 0x20) = true ∧
    wholeStep .powerOn = true := by decide

theorem witness_StepKeepsInv :
    invOk (waiting shortCmd) = true ∧ wholeStep .wdog = true ∧
    (∃ t, exec .wdog (waiting shortCmd) = .next t) ∧
    invOk { waiting shortCmd with agenda := [encode .wdog] } = true ∧
    wholeAgenda { waiting shortCmd with agenda := [encode .wdog] } = true ∧
    ∃ t, step { waiting shortCmd with agenda := [encode .wdog] } = .next t :=
  ⟨by decide, by decide, ⟨_, rfl⟩, by decide, by decide, ⟨_, rfl⟩⟩

theorem witness_StepKeepsMemory :
    let s := { drawing [0x04030201, 0x08070605] (moving readData 2) with
      mem := [(0xFFF, 1)], agenda := [encode .pioReadBlock] }
    memoryOk s = true ∧ ∃ t, step s = .next t := ⟨by decide, ⟨_, rfl⟩⟩

theorem witness_Frame :
    paramsOk quiet.params = true ∧ (∃ t, exec (.schedule .card) quiet = .next t) ∧
    Field.finishPend ∉ mayWrite quiet.params (.schedule .card) := ⟨by decide, ⟨_, rfl⟩, by decide⟩

/-- The byte just past the block is not stored to; the block's last byte is. -/
theorem witness_MemoryFrame :
    let s := drawing [0x04030201, 0x08070605] (moving readData 2)
    paramsOk s.params = true ∧ (∃ t, exec .pioReadBlock s = .next t) ∧
    0x1006 ∉ storedAt .pioReadBlock s ∧ 0x1005 ∈ storedAt .pioReadBlock s :=
  ⟨by decide, ⟨_, rfl⟩, by decide, by decide⟩

theorem witness_LegalAccessesOnly : ∃ t, exec (.stCmdTimeout 0x10000) (waiting shortCmd) = .next t :=
  ⟨_, rfl⟩

theorem witness_IssuerFieldsKept :
    (∃ t q', exec .wdog (waiting shortCmd) = .next t ∧ t.req = some q' ∧
      (waiting shortCmd).req = some { cmd := some shortCmd }) ∧
    ∃ t q', exec (.submit full) (drawing [1] quiet) = .next t ∧ t.req = some q' ∧
      quiet.req = none :=
  ⟨⟨_, _, rfl, rfl, rfl⟩, ⟨_, _, rfl, rfl, rfl⟩⟩

/-- The readable and writable registers' offsets. -/
theorem witness_ReadRegisters_WriteRegisters :
    let p := quiet.params
    ready quiet = true ∧ (0x0B : Word).toNat = p.offAbort ∧ (0x00 : Word).toNat = p.offIntStatus ∧
    (0x14 : Word).toNat = p.offPresent ∧ (0x20 : Word).toNat = p.offResp0 ∧
    (0x24 : Word).toNat = p.offResp1 ∧ (0x28 : Word).toNat = p.offResp2 ∧
    (0x2C : Word).toNat = p.offResp3 ∧ (0x30 : Word).toNat = p.offData ∧
    (0x08 : Word).toNat = p.offCmd ∧ (0x09 : Word).toNat = p.offCmdCtrl ∧
    (0x0A : Word).toNat = p.offDataCtrl ∧ (0x18 : Word).toNat = p.offPower ∧
    (0x10 : Word).toNat = p.offBlksize ∧ (0x04 : Word).toNat = p.offIntEnable ∧
    (0x0C : Word).toNat = p.offArg := by decide

/-- Legal and illegal accesses of each kind: the last register, past the window, misaligned. -/
theorem witness_WindowCheck :
    quiet.fault = none ∧ paramsOk quiet.params = true ∧
    legalAccess quiet 0x0B 1 regReadable = true ∧ legalAccess quiet 0x08 1 regReadable = false ∧
    legalAccess quiet 0x30 4 regReadable = true ∧ legalAccess quiet 0x40 4 regReadable = false ∧
    legalAccess quiet 0x18 1 regWritable = true ∧ legalAccess quiet 0x10 1 regWritable = false ∧
    legalAccess quiet 0x10 2 regWritable = true ∧ legalAccess quiet 0x11 2 regWritable = false ∧
    legalAccess quiet 0x0C 4 regWritable = true ∧ legalAccess quiet 0x20 4 regWritable = false ∧
    legalAccess { quiet with attached := false } 0x0C 4 regWritable = false := by decide

theorem witness_LogTimerSchedule :
    quiet.fault = none ∧ ({ quiet with finishPend := true } : State).finishPend = true ∧
    ({ quiet with cardPend := true } : State).cardPend = true := by decide

theorem witness_RegisterEncodings : ready quiet = true := by decide

theorem witness_FieldCodes :
    ready quiet = true ∧ quiet.fault = none ∧ 5 ≤ (5 : BitVec 3).toNat ∧ 5 ≤ (7 : BitVec 3).toNat ∧
    (cmdOf { quiet with req := some full } .sbc).isSome = true ∧
    (cmdOf { quiet with req := some full } .primary).isSome = true ∧
    (cmdOf { quiet with req := some full } .stop).isSome = true := by decide

/-- Opcode 63; both sides of the 9000 ms threshold. -/
theorem witness_IssueCommand :
    let c (t : Nat) : Command := { shortCmd with opcode := 63, timeoutMs := t }
    let s (t : Nat) := waiting (c t)
    (ready (s 9000) = true ∧ cmdOf (s 9000) .primary = some (c 9000) ∧
      hasData (s 9000) (c 9000) = false ∧ (c 9000).opcode < 64 ∧
      Shape.ofCode (c 9000).shapeCode = some .short) ∧
    (ready (s 9001) = true ∧ cmdOf (s 9001) .primary = some (c 9001) ∧
      hasData (s 9001) (c 9001) = false ∧ 9000 < (c 9001).timeoutMs) := by decide

/-- A Data object at every limit. -/
theorem witness_IssueWithData :
    let d : Data := { readData with blksz := 512, blocks := 1024, sg := [⟨2 ^ 32 - 524288, 524288⟩] }
    let q : Request := { cmd := some shortCmd, data := some d }
    let s := { quiet with req := some q }
    ready s = true ∧ cmdOf s .primary = some shortCmd ∧ shortCmd.role = .primary ∧
    s.req = some q ∧ q.data = some d ∧ sizesOk d = true ∧ sgInRange s.params d = true ∧
    sgCovers d = true ∧ shortCmd.opcode < 64 ∧ Shape.ofCode shortCmd.shapeCode = some .short := by
  decide

/-- One state per fault of issue. -/
theorem witness_IssueFaults :
    let s (c : Command) (d : Option Data) := { quiet with req := some { cmd := some c, data := d } }
    ready (s shortCmd none) = true ∧ cmdOf (s shortCmd none) .primary = some shortCmd ∧
    faults (.issue .primary) (s shortCmd (some { readData with blksz := 513 })) .configSize ∧
    faults (.issue .primary) (s shortCmd (some { readData with sg := [⟨2 ^ 32 - 11, 12⟩] }))
      .configSgRange ∧
    faults (.issue .primary) (s shortCmd (some { readData with sg := [⟨0, 11⟩] })) .configSgShort ∧
    faults (.issue .primary) (s { shortCmd with opcode := 64 } (some readData)) .configOpcode ∧
    faults (.issue .primary) (s { shortCmd with shapeCode := 5 } none) .configShape := by decide

theorem witness_SpuriousCommand :
    let m := cmdMask quiet.params
    quiet.fault = none ∧ quiet.curCmd = none ∧ ready (raised m quiet) = true ∧
    (raised m quiet).curCmd = none ∧ (raised m quiet).win.intStatus = m ∧ m ≠ 0 ∧
    m &&& ~~~cmdMask (raised m quiet).params = 0 ∧ m ≠ BitVec.allOnes 32 := by decide

/-- One mask per clause. -/
theorem witness_CommandInterrupt :
    let s := waiting shortCmd
    let p := s.params
    s.fault = none ∧ s.curCmd = some .primary ∧ s.req = some { cmd := some shortCmd } ∧
    Request.command { cmd := some shortCmd } .primary = some shortCmd ∧
    (0x00030001 : Word) &&& cmdErrTo p ≠ 0 ∧
    (0x00080001 : Word) &&& cmdErrTo p = 0 ∧ (0x00080001 : Word) &&& cmdErrProt p ≠ 0 ∧
    (0x00000001 : Word) &&& cmdErrTo p = 0 ∧ (0x00000001 : Word) &&& cmdErrProt p = 0 ∧
    (0x00000001 : Word) &&& bitMask p.stCmdComplete ≠ 0 ∧
    (0x00000002 : Word) &&& cmdErrTo p = 0 ∧ (0x00000002 : Word) &&& cmdErrProt p = 0 ∧
    (0x00000002 : Word) &&& bitMask p.stCmdComplete = 0 := by decide

theorem witness_FinishCommand :
    let s := waiting longCmd
    let e := { moving readData 0 with curCmd := some .primary, dataEarly := true }
    let b := { quiet with req := some full, curCmd := some .sbc }
    (ready s = true ∧ s.curCmd = some .primary ∧ cmdOf s .primary = some longCmd ∧
      Shape.ofCode longCmd.shapeCode = some .long ∧ Role.primary ≠ .sbc ∧ s.curData = false) ∧
    (ready e = true ∧ e.curCmd = some .primary ∧ cmdOf e .primary = some shortCmd ∧
      Shape.ofCode shortCmd.shapeCode = some .short ∧ e.curData = true ∧ e.dataEarly = true ∧
      dataOf e = some readData) ∧
    (({ e with dataEarly := false } : State).curData = true ∧
      ({ e with dataEarly := false } : State).dataEarly = false) ∧
    (ready b = true ∧ b.curCmd = some .sbc ∧ cmdOf b .sbc = some sbcCmd ∧
      Shape.ofCode sbcCmd.shapeCode = some .short) := by decide

/-- No data; a list one byte past the top of memory, one byte short, and exact. -/
theorem witness_Prepare :
    let q (sg : List SgEntry) : Request := { cmd := some shortCmd, data := some { readData with sg := sg } }
    let s (sg : List SgEntry) := { quiet with req := some (q sg) }
    quiet.fault = none ∧ dataOf quiet = none ∧ (s [⟨0, 12⟩]).fault = none ∧
    (s [⟨0, 12⟩]).req = some (q [⟨0, 12⟩]) ∧ sizesOk readData = true ∧
    (∃ e ∈ [(⟨2 ^ 32 - 11, 12⟩ : SgEntry)], 2 ^ (s []).params.memAddrWidth < e.addr + e.len) ∧
    (∀ e ∈ [(⟨2 ^ 32 - 11, 11⟩ : SgEntry)], e.addr + e.len ≤ 2 ^ (s []).params.memAddrWidth) ∧
    (([⟨2 ^ 32 - 11, 11⟩] : List SgEntry).map (fun e => e.len)).sum < readData.blksz * readData.blocks ∧
    readData.blksz * readData.blocks ≤ (([⟨0, 12⟩] : List SgEntry).map (fun e => e.len)).sum ∧
    (∀ e ∈ [(⟨0, 12⟩ : SgEntry)], e.addr + e.len ≤ 2 ^ (s []).params.memAddrWidth) ∧
    ready (s [⟨0, 12⟩]) = true := by decide

theorem witness_SizeCheck :
    let s (z n : Nat) := { quiet with req := some {
      cmd := some shortCmd, data := some { readData with blksz := z, blocks := n } } }
    (s 512 1025).fault = none ∧
    dataOf (s 512 1025) = some { readData with blksz := 512, blocks := 1025 } ∧
    524288 < 512 * 1025 ∧ 512 * 1024 ≤ 524288 ∧
    dataOf (s 1 65536) = some { readData with blksz := 1, blocks := 65536 } := by decide

theorem witness_TriggerBlock : ready quiet = true := by decide

theorem witness_DataInterruptNoPhase :
    let s := waiting eraseCmd
    let p := s.params
    s.fault = none ∧ s.curData = false ∧
    (∃ r c, s.curCmd = some r ∧ cmdOf s r = some c ∧ Shape.ofCode c.shapeCode = some .shortBusy) ∧
    (0x00100002 : Word) &&& bitMask p.stXferComplete ≠ 0 ∧
    (0x00000020 : Word) &&& bitMask p.stXferComplete = 0 ∧ (0x00000020 : Word) &&& dataErr p = 0 ∧
    (0x00100000 : Word) &&& bitMask p.stXferComplete = 0 ∧ (0x00100000 : Word) &&& dataErr p ≠ 0 ∧
    s.curCmd = some .primary ∧ s.req = some { cmd := some eraseCmd } ∧
    Request.command { cmd := some eraseCmd } .primary = some eraseCmd ∧ quiet.curCmd = none ∧
    quiet.fault = none ∧ quiet.curData = false :=
  ⟨rfl, rfl, ⟨.primary, eraseCmd, rfl, rfl, rfl⟩, by decide, by decide, by decide, by decide,
    by decide, rfl, rfl, rfl, rfl, rfl, rfl⟩

theorem witness_DataInterruptPhase :
    let s := { moving readData 2 with curCmd := some .primary }
    let p := s.params
    s.fault = none ∧ s.curData = true ∧ dataOf s = some readData ∧
    (0x00300022 : Word) &&& dataErrTo p ≠ 0 ∧
    (0x00600022 : Word) &&& dataErrTo p = 0 ∧ (0x00600022 : Word) &&& dataErrProt p ≠ 0 ∧
    (0x00000032 : Word) &&& (dataErrTo p ||| dataErrProt p) = 0 ∧
    (0x00000002 : Word) &&& (dataErrTo p ||| dataErrProt p ||| dataXfer p) = 0 ∧
    (0x00000002 : Word) &&& bitMask p.stXferComplete ≠ 0 ∧ s.curCmd ≠ none := by decide

/-- No stop command; a stop with an SBC and no error; a stop without an SBC; a stop after an error. -/
theorem witness_FinishData :
    let d : Data := { readData with stop := some stopCmd }
    let s := moving d 0
    (ready (moving readData 0) = true ∧
      (moving readData 0).req = some { cmd := some shortCmd, data := some readData } ∧
      ¬ readData.stop ≠ none) ∧
    (full.data = some d ∧ d.stop ≠ none ∧ full.sbc ≠ none) ∧
    (ready s = true ∧ s.req = some { cmd := some shortCmd, data := some d } ∧
      ({ cmd := some shortCmd, data := some d } : Request).sbc = none) ∧
    (Err.timeout ≠ .ok ∧ s.params.stopPolicy = .b) := by decide

theorem witness_PioMovesBlock :
    (moving readData 0).cursor.blocksLeft = 0 ∧ (moving readData 1).fault = none ∧
    0 < (moving readData 1).cursor.blocksLeft ∧ dataOf (moving readData 1) = some readData ∧
    reaches (moving readData 1) readData = true ∧ ready (moving readData 1) = true ∧
    reaches (moving writeData 1) writeData = true := by decide

/-- The last block of the list reaches exactly; one byte further it does not. -/
theorem witness_ReadBlock_WriteBlock_ListExhausted :
    let s (off : Nat) := { moving readData 1 with cursor := { blocksLeft := 1, sgOff := off } }
    ready (s 6) = true ∧ dataOf (s 6) = some readData ∧ reaches (s 6) readData = true ∧
    dataOf (s 7) = some readData ∧ ready (s 7) = true ∧ reaches (s 7) readData = false ∧
    invOk (s 6) = true ∧ (s 6).fault = none ∧ (s 6).curData = true ∧
    0 < (s 6).cursor.blocksLeft := by decide

theorem witness_RoundTrip :
    let s := { moving writeData 1 with mem := [(0x1000, 0xA1), (0x3000, 0xB1)] }
    let s' := drawing [0x0000B1A1, 0x00000000] (moving readData 1)
    ready s = true ∧ ready s' = true ∧ dataOf s = some writeData ∧ dataOf s' = some readData ∧
    readData.blksz = writeData.blksz ∧ reaches s writeData = true ∧ reaches s' readData = true ∧ memoryOk s' = true ∧
    (∃ t, exec .pioWriteBlock s = .next t ∧
      s'.answers = dataWords s.params (t.trace.drop s.trace.length)) ∧
    (∃ t', exec .pioReadBlock s' = .next t') ∧
    (blockAddrs s'.params readData.sg readData.blksz s'.cursor).Nodup :=
  ⟨by decide, by decide, rfl, rfl, rfl, by decide, by decide, by decide, ⟨_, rfl, by decide⟩, ⟨_, rfl⟩,
    by decide⟩

theorem witness_SpuriousStatus :
    ready quiet = true ∧ quiet.win.intStatus = 0 ∧
    ready (raised (BitVec.allOnes 32) quiet) = true ∧
    (raised (BitVec.allOnes 32) quiet).win.intStatus = BitVec.allOnes 32 := by decide

/-- A word with bits of all four categories, every bit but one. -/
theorem witness_DispatchOrder :
    ready (raised 0xFFFFFFFE quiet) = true ∧ (0xFFFFFFFE : Word) ≠ 0 ∧
    (0xFFFFFFFE : Word) ≠ BitVec.allOnes 32 := by decide

theorem witness_StatusWordsRaise :
    quiet.fault = none ∧ quiet.attached = true ∧
    raisedWord quiet.params (.stDataEndBit 0x400000) = some 0x400000 ∧
    raisedWord quiet.params (.stUnclassified 0x80000000) = some 0x80000000 ∧
    raisedWord quiet.params .spuriousAllOnes = some (BitVec.allOnes 32) := by decide

theorem witness_DispatchCompletes :
    invOk (moving readData 2) = true ∧ ready (moving readData 2) = true ∧
    raisedWord (moving readData 2).params (.stXferComplete 0x2) = some 0x2 ∧
    spuriousWord ((moving readData 2).win.intStatus ||| 0x2) = false := by decide

/-- The row's own bit, the word the decoder gives, is a word of no other bit. -/
theorem witness_QuietWords :
    let p := quiet.params
    onlyBit p.stCardInsert 0x40 ∧ onlyBit p.stCardRemove 0x80 ∧ onlyBit p.stCardInt 0x100 ∧
    ready quiet = true ∧ quiet.win.intStatus = 0 ∧ (0x80000000 : Word) ≠ 0 ∧
    (0x80000000 : Word) &&& classified quiet.params = 0 := by
  unfold onlyBit; decide

theorem witness_CommandWords :
    let s := waiting shortCmd
    ready s = true ∧ s.win.intStatus = 0 ∧ s.curCmd = some .primary ∧
    s.req = some { cmd := some shortCmd } ∧
    Request.command { cmd := some shortCmd } .primary = some shortCmd ∧ Role.primary ≠ .sbc ∧
    s.curData = false ∧ Shape.ofCode shortCmd.shapeCode = some .short ∧
    onlyBit s.params.stCmdTimeout 0x10000 ∧ onlyBit s.params.stCmdCrc 0x20000 ∧
    onlyBit s.params.stCmdEndBit 0x40000 ∧ onlyBit s.params.stCmdIndex 0x80000 ∧
    onlyBit s.params.stCmdComplete 0x1 := by
  unfold onlyBit; decide

theorem witness_DataWords :
    let s := moving readData 1
    ready s = true ∧ s.win.intStatus = 0 ∧ s.curData = true ∧ s.curCmd = none ∧
    s.req = some { cmd := some shortCmd, data := some readData } ∧ readData.stop = none ∧
    0 < s.cursor.blocksLeft ∧ (moving readData 0).cursor.blocksLeft = 0 ∧
    onlyBit s.params.stDataTimeout 0x100000 ∧ onlyBit s.params.stDataCrc 0x200000 ∧
    onlyBit s.params.stDataEndBit 0x400000 ∧ onlyBit s.params.stXferComplete 0x2 ∧
    onlyBit s.params.stDataAvail 0x20 ∧ onlyBit s.params.stSpaceAvail 0x10 := by
  unfold onlyBit; decide

/-- No Request; a clean one; one with an error on each of the three objects. -/
theorem witness_FinishWork :
    let s (q : Request) := { quiet with finishPend := true, req := some q }
    ({ quiet with finishPend := true } : State).req = none ∧ quiet.fault = none ∧
    ready (s full) = true ∧ (s full).finishPend = true ∧ (s full).req = some full ∧
    needsAbort full = false ∧
    needsAbort { full with cmd := some { shortCmd with error := .timeout } } = true ∧
    needsAbort { full with data := some { readData with error := .protocolViolation } } = true ∧
    needsAbort { full with data := some { readData with
      stop := some { stopCmd with error := .timeout } } } = true := by decide

theorem witness_CardWork :
    quiet.fault = none ∧ quiet.cardPend = false ∧
    ({ quiet with cardPend := true } : State).cardPend = true := by decide

/-- A poll that ends at the third read, and one that never ends. -/
theorem witness_AbortSequence :
    let s := drawing [0x02, 0x06, 0x04] quiet
    let stuck := drawing (List.replicate 500 0x02) quiet
    ready s = true ∧ 1 ≤ 3 ∧ 3 ≤ 500 ∧
    (∀ j, j < 3 - 1 → ((drawAt s j).setWidth 8 : Byte) &&& s.params.abortCmd ≠ 0) ∧
    ((drawAt s (3 - 1)).setWidth 8 : Byte) &&& s.params.abortCmd = 0 ∧ ready stuck = true ∧
    (List.range 500).all (fun j =>
      ((drawAt stuck j).setWidth 8 : Byte) &&& stuck.params.abortCmd != 0) = true :=
  ⟨by decide, by decide, by decide, by decide, by decide, by decide, by decide +kernel⟩

theorem witness_WatchdogFire :
    let idle := { quiet with timer := some 10 }
    let s := waiting shortCmd
    let d := moving readData 2
    (idle.fault = none ∧ idle.timer.isSome = true ∧ idle.req = none) ∧
    (d.fault = none ∧ d.timer.isSome = true ∧ d.req ≠ none ∧ d.curData = true) ∧
    (s.fault = none ∧ s.timer.isSome = true ∧ s.req = some { cmd := some shortCmd } ∧
      s.curData = false ∧
      Role.primary = (match s.curCmd with | some x => x | none => Role.primary) ∧
      Request.command { cmd := some shortCmd } .primary = some shortCmd) := by decide

theorem witness_OneCompletion :
    let s := { waiting shortCmd with finishPend := true }
    let n := { quiet with notifyQ := [full] }
    (invOk s = true ∧ Instr.topLevel .workFinish = true ∧ ∃ t, exec .workFinish s = .next t) ∧
    (invOk n = true ∧ ∃ t, exec .notify n = .next t) :=
  ⟨⟨by decide, rfl, ⟨_, rfl⟩⟩, ⟨by decide, ⟨_, rfl⟩⟩⟩

theorem witness_PhaseMoves :
    (invOk (waiting shortCmd) = true ∧ phase (waiting shortCmd) = .commandIssued ∧
      ∃ t, exec .wdog (waiting shortCmd) = .next t ∧ t.fault = none ∧ phase t = .completing) ∧
    (invOk quiet = true ∧ phase quiet = .idle ∧
      ∃ t, exec (.submit full) (drawing [1] quiet) = .next t ∧ t.fault = none ∧
        phase t = .commandIssued) ∧
    ∃ t, exec .workFinish { waiting shortCmd with finishPend := true } = .next t ∧ phase t = .idle :=
  ⟨⟨by decide, rfl, ⟨_, rfl, rfl, rfl⟩⟩, ⟨by decide, rfl, ⟨_, rfl, rfl, rfl⟩⟩, ⟨_, rfl, rfl⟩⟩

/-- The longest way out: a Data phase with a stop command. -/
theorem witness_EveryRequestEnds :
    let s := moving { readData with stop := some stopCmd } 2
    let f := { waiting shortCmd with finishPend := true }
    (invOk s = true ∧ ready s = true ∧ s.req.isSome = true ∧ s.finishPend = false) ∧
    (invOk f = true ∧ ready f = true ∧ f.req = some { cmd := some shortCmd } ∧ f.finishPend = true) ∧
    (({ quiet with notifyQ := [full] } : State).notifyQ = full :: []) := by decide

/-- A run whose Request is completing: WORK_FINISH, NOTIFY, then nothing owed, for ever. -/
def lastTurns : Nat → State
  | 0 => { waiting shortCmd with finishPend := true }
  | 1 => { quiet with trace := [.cancel], notifyQ := [{ cmd := some shortCmd }] }
  | _ => { quiet with trace := [.cancel, .notifyComplete { cmd := some shortCmd }] }

def lastOffers : Nat → Instr
  | 0 => .workFinish
  | 1 => .notify
  | _ => .wdog

theorem lastTurns_owed (i : Instr) (n : Nat) : owed i (lastTurns (n + 2)) = false := by
  have settled : owed .irq (lastTurns 2) = false := by decide
  cases i
  case irq => exact settled
  all_goals rfl

theorem witness_EventuallyNotified :
    isRun lastTurns lastOffers ∧ fairRun lastTurns lastOffers ∧ invOk (lastTurns 0) = true ∧
    (lastTurns 0).req = some { cmd := some shortCmd } := by
  refine ⟨fun n => ?_, fun i n => ⟨n + 2, by omega, ?_⟩, by decide, rfl⟩
  · match n with
    | 0 => exact ⟨[], [], 0, rfl⟩
    | 1 => exact ⟨[], [], 0, rfl⟩
    | _ + 2 => exact ⟨[], [], 0, rfl⟩
  · rw [lastTurns_owed]; intro h; cases h

theorem witness_SubmitTurnedAway :
    let r : Request := { cmd := some shortCmd }
    let gone := drawing [0] quiet
    quiet.fault = none ∧ ({ quiet with attached := false } : State).attached = false ∧
    (waiting shortCmd).attached = true ∧ (waiting shortCmd).req ≠ none ∧ quiet.attached = true ∧
    quiet.req = none ∧ ({ r with cmd := none } : Request).cmd = none ∧ ready gone = true ∧
    gone.req = none ∧ r.cmd ≠ none ∧
    presentShown gone &&& bitMask gone.params.presentCard = 0 := by decide

theorem witness_SubmitIssues :
    let r : Request := { cmd := some shortCmd }
    let s := drawing [1] quiet
    ready s = true ∧ s.req = none ∧ r.cmd = some shortCmd ∧
    presentShown s &&& bitMask s.params.presentCard ≠ 0 ∧ r.sbc = none ∧ r.data = none ∧
    full.sbc ≠ none ∧ full.cmd = some shortCmd ∧ shortCmd.opcode < 64 ∧
    Shape.ofCode shortCmd.shapeCode = some .short := by decide

theorem witness_Notify :
    quiet.fault = none ∧ ({ quiet with notifyQ := [full] } : State).notifyQ = full :: [] := by decide

theorem witness_PlatformSteps :
    let b := State.beforeAttach
    ready (waiting shortCmd) = true ∧ (b.fault = none ∧ b.attached = false ∧ paramsOk b.params = true) ∧
    (ready quiet = true ∧ quiet.req = none ∧ quiet.finishPend = false ∧ quiet.cardPend = false ∧
      quiet.timer = none ∧ quiet.notifyQ = []) := by decide

theorem witness_EnvRaise_EnvCard :
    let slot : State := { quiet with params := { quiet.params with presentRead := .slot } }
    quiet.fault = none ∧ slot.fault = none ∧ slot.params.presentRead = .slot ∧
    (raised 1 quiet).win.intStatus ||| 1 = (raised 1 quiet).win.intStatus := by decide

end Sys2Proof.Tests
end

/-! The window check against the register table (spec/20_memory.md R62), each accessor's answer
as one function of the check (spec/40_register_interface.md R115 to R120), and the proof of WindowCheck. -/

namespace Sys2Proof.Machine

/-! ### The check and the register table -/

/-- With distinct offsets, the register found at an offset is the one the table lists there. -/
theorem regAt_eq_some_iff {p : Params} (hp : paramsOk p = true) {off : Nat} {r : Reg} :
    regAt p off = some r ↔ regOff p r = off := by
  constructor
  · intro h
    simpa using List.find?_some h
  · rintro rfl
    exact regAt_regOff hp r

/-- What the window check lets through, and as which register. -/
theorem check_eq_some_iff {s : State} (hp : paramsOk s.params = true) {off bytes : Nat}
    {allowed : Reg → Bool} {r : Reg} :
    check s off bytes allowed = some r ↔
      (s.attached = true ∧ off + bytes ≤ s.params.windowSize ∧ off % bytes = 0) ∧
        regOff s.params r = off ∧ regBytes r = bytes ∧ allowed r = true := by
  constructor
  · intro h
    unfold check at h
    split at h
    next hw =>
      split at h
      next q hq =>
        split at h
        next hr =>
          cases h
          exact ⟨by simpa [and_assoc] using hw, (regAt_eq_some_iff hp).1 hq, by simpa using hr⟩
        next => cases h
      next => cases h
    next => cases h
  · rintro ⟨⟨ha, -, -⟩, rfl, hb, hd⟩
    exact check_regOff hp ha r hb hd

/-- The check passes exactly the accesses the register table lists, while attached. -/
theorem legalAccess_eq_isSome_check {s : State} (hp : paramsOk s.params = true) (off bytes : Nat)
    (allowed : Reg → Bool) :
    legalAccess s off bytes allowed = (check s off bytes allowed).isSome := by
  rw [Bool.eq_iff_iff, Option.isSome_iff_exists]
  simp [check_eq_some_iff hp, legalAccess, mem_allRegs, and_assoc]

/-! ### The accessors' answers -/

/-- The state after an access the window does not have: WindowAccess raised and recorded (R62, R253). -/
def windowFault (s : State) : State :=
  { s with fault := some .windowAccess, trace := s.trace ++ [.fault .windowAccess] }

section
variable {s : State} (hf : s.fault = none) (off : Word)
include hf

theorem exec_read8_eq_check : exec (.read8 off) s =
    .next ((check s off.toNat 1 regReadable).elim (windowFault s) fun r =>
      record (.r8 off.toNat (show8 r s).1) (show8 r s).2) := by
  cases h : check s off.toNat 1 regReadable <;>
    simp [exec, execRead8, whenLive_live hf, read8, h, windowFault]

theorem exec_read32_eq_check : exec (.read32 off) s =
    .next ((check s off.toNat 4 regReadable).elim (windowFault s) fun r =>
      record (.r32 off.toNat (show32 r s).1) (show32 r s).2) := by
  cases h : check s off.toNat 4 regReadable <;>
    simp [exec, execRead32, whenLive_live hf, read32, h, windowFault]

theorem exec_write8_eq_check (v : Byte) : exec (.write8 off v) s =
    .next ((check s off.toNat 1 regWritable).elim (windowFault s) fun r =>
      { record (.w8 off.toNat v) s with win := latch8 r v s.win }) := by
  cases h : check s off.toNat 1 regWritable <;>
    simp [exec, execWrite8, whenLive_live hf, write8, h, windowFault]

theorem exec_write16_eq_check (v : Half) : exec (.write16 off v) s =
    .next ((check s off.toNat 2 regWritable).elim (windowFault s) fun _ =>
      { record (.w16 off.toNat v) s with win := { s.win with blksize := v } }) := by
  cases h : check s off.toNat 2 regWritable <;>
    simp [exec, execWrite16, whenLive_live hf, write16, h, windowFault]

theorem exec_write32_eq_check (v : Word) : exec (.write32 off v) s =
    .next ((check s off.toNat 4 regWritable).elim (windowFault s) fun r =>
      { record (.w32 off.toNat v) s with win := latch32 r v s.win }) := by
  cases h : check s off.toNat 4 regWritable <;>
    simp [exec, execWrite32, whenLive_live hf, write32, h, windowFault]

end

/-- R120 for one access: a fault-free next state where the access is legal, otherwise WindowAccess. -/
def AnswersWindow (s : State) (legal : Bool) (a : Answer) : Prop :=
  if legal then ∃ t, a = .next t ∧ t.fault = none else a = .next (windowFault s)

/-- An access that goes on as the check says, with no fault where it passes, answers as R120 asks. -/
theorem answersWindow_of_check {s : State} (hp : paramsOk s.params = true) {off bytes : Nat}
    {allowed : Reg → Bool} {a : Answer} {pass : Reg → State}
    (ha : a = .next ((check s off bytes allowed).elim (windowFault s) pass))
    (hpass : ∀ r, (pass r).fault = none) :
    AnswersWindow s (legalAccess s off bytes allowed) a := by
  unfold AnswersWindow
  rw [legalAccess_eq_isSome_check hp]
  cases h : check s off bytes allowed with
  | none => simpa [h] using ha
  | some r => exact ⟨pass r, by simpa [h] using ha, hpass r⟩

/-- Settles O19: each accessor goes on as the check says, and the check passes the accesses of the table. -/
theorem windowCheck : Obligations.WindowCheck := by
  unfold Obligations.WindowCheck
  intro s off b h w hf hp
  exact ⟨answersWindow_of_check hp (exec_read8_eq_check hf off) fun r => by simpa using hf,
    answersWindow_of_check hp (exec_read32_eq_check hf off) fun r => by simpa using hf,
    answersWindow_of_check hp (exec_write8_eq_check hf off b) fun _ => hf,
    answersWindow_of_check hp (exec_write16_eq_check hf off h) fun _ => hf,
    answersWindow_of_check hp (exec_write32_eq_check hf off w) fun _ => hf⟩

end Sys2Proof.Machine

/-! ISSUE and the command interrupt (spec/41_command_engine.md R125 to R139): one equation per case of
each rule, and the proofs of IssueWithData, IssueFaults, SpuriousCommand and CommandInterrupt. -/

namespace Sys2Proof.Machine

/-! ### Live and halted states -/

theorem ready_iff {s : State} :
    ready s = true ↔ s.fault = none ∧ s.attached = true ∧ paramsOk s.params = true := by
  simp [ready, and_assoc]

/-- Every step asks first whether a fault was raised (R253). -/
theorem exec_halted {s : State} {r : FaultReason} (h : s.fault = some r) (i : Instr) :
    exec i s = .fault (.halted r) := by
  cases s
  cases h
  cases i <;> rfl

/-- No step answers a next state once a fault was raised. -/
theorem exec_ne_next_of_fault {s : State} (h : s.fault.isSome = true) (i : Instr) (t : State) :
    exec i s ≠ .next t := by
  obtain ⟨r, hr⟩ := Option.isSome_iff_exists.1 h
  simp [exec_halted hr]

/-! ### The writes of the engine, register by register (R117 to R119) -/

section
variable {s : State} (hp : paramsOk s.params = true) (ha : s.attached = true)
include hp ha

theorem writeCmd_ok (v : Byte) : writeReg8 .cmd v s =
    done { record (.w8 s.params.offCmd v) s with win := { s.win with cmd := v } } :=
  writeReg8_ok hp ha .cmd rfl rfl v

theorem writeCmdCtrl_ok (v : Byte) : writeReg8 .cmdCtrl v s =
    done { record (.w8 s.params.offCmdCtrl v) s with win := { s.win with cmdCtrl := v } } :=
  writeReg8_ok hp ha .cmdCtrl rfl rfl v

theorem writeDataCtrl_ok (v : Byte) : writeReg8 .dataCtrl v s =
    done { record (.w8 s.params.offDataCtrl v) s with win := { s.win with dataCtrl := v } } :=
  writeReg8_ok hp ha .dataCtrl rfl rfl v

theorem writeArg_ok (v : Word) : writeReg32 .arg v s =
    done { record (.w32 s.params.offArg v) s with win := { s.win with arg := v } } :=
  writeReg32_ok hp ha .arg rfl rfl v

theorem writeBlksize_ok (v : Half) : writeReg16 .blksize v s =
    done { record (.w16 s.params.offBlksize v) s with win := { s.win with blksize := v } } :=
  writeReg16_ok hp ha v

theorem writeIntStatus_ok (v : Word) : writeReg32 .intStatus v s =
    done { record (.w32 s.params.offIntStatus v) s with
      win := { s.win with intStatus := s.win.intStatus &&& ~~~v } } :=
  writeReg32_ok hp ha .intStatus rfl rfl v

end

/-! ### The register writes of ISSUE (R125, R128, R132) -/

theorem Shape.ofCode_eq_none_iff (code : BitVec 3) : Shape.ofCode code = none ↔ 5 ≤ code.toNat := by
  revert code; decide

/-- The state after the CMD and ARG writes, before the command is launched (R128). -/
def commandWritten (c : Command) (s : State) : State :=
  { s with
    win := { s.win with cmd := cmdByte s.params c.opcode, arg := argWord s.params c.arg }
    trace := s.trace ++ [.w8 s.params.offCmd (cmdByte s.params c.opcode),
      .w32 s.params.offArg (argWord s.params c.arg)] }

/-- R132: an opcode of 64 or more is refused before any write. -/
theorem sendCommand_opcodeFault {c : Command} (h : 64 ≤ c.opcode) (s : State) :
    sendCommand c s = raise .configOpcode s := by
  simp [sendCommand, h]

/-- R128: any other is written to CMD, then the argument to ARG, and then launched. -/
theorem sendCommand_writes {s : State} (ha : s.attached = true) (hp : paramsOk s.params = true)
    {c : Command} (h : c.opcode < 64) :
    sendCommand c s = launch c.shapeCode (commandWritten c s) := by
  have hop : ¬ 64 ≤ c.opcode := by omega
  simp [sendCommand, hop, writeCmd_ok, writeArg_ok, ha, hp, commandWritten]

theorem launch_shapeFault {code : BitVec 3} (h : Shape.ofCode code = none) (s : State) :
    launch code s = raise .configShape s := by
  simp [launch, h]

/-- The state after the CMD_CTRL write of a known shape, which launches the command (R128). -/
def launched (sh : Shape) (s : State) : State :=
  { record (.w8 s.params.offCmdCtrl (rspCtl s.params sh)) s with
    win := { s.win with cmdCtrl := rspCtl s.params sh } }

/-- R128: a command ISSUE accepts is written and launched. -/
theorem sendCommand_known {s : State} (ha : s.attached = true) (hp : paramsOk s.params = true)
    {c : Command} (h : c.opcode < 64) {sh : Shape} (hsh : Shape.ofCode c.shapeCode = some sh) :
    sendCommand c s = done (launched sh (commandWritten c s)) := by
  rw [sendCommand_writes ha hp h]
  simp [launch, hsh, writeCmdCtrl_ok, ha, hp, commandWritten, launched]

/-- The fault of the register writes of ISSUE, if any (R132). -/
def commandFault (c : Command) : Option FaultReason :=
  if 64 ≤ c.opcode then some .configOpcode
  else if 5 ≤ c.shapeCode.toNat then some .configShape
  else none

/-- What the three command registers hold where ISSUE faulted (R132): with ConfigOpcode what they held
before, with ConfigShape the opcode and the argument, the control byte not yet written. -/
def FaultedPorts (c : Command) (s t : State) : Prop :=
  (t.fault = some .configOpcode → t.win.cmd = s.win.cmd ∧ t.win.arg = s.win.arg ∧
    t.win.cmdCtrl = s.win.cmdCtrl) ∧
  (t.fault = some .configShape → t.win.cmd = cmdByte s.params c.opcode ∧
    t.win.arg = argWord s.params c.arg ∧ t.win.cmdCtrl = s.win.cmdCtrl)

/-- The register writes of ISSUE always end the step, with commandFault. -/
theorem sendCommand_ends {s : State} (hs : ready s = true) (c : Command) :
    ∃ t, (sendCommand c s).outcome = .next t ∧ t.fault = commandFault c ∧ FaultedPorts c s t := by
  obtain ⟨hf, ha, hp⟩ := ready_iff.1 hs
  by_cases ho : 64 ≤ c.opcode
  · rw [sendCommand_opcodeFault ho]
    exact ⟨_, Res.outcome_raise _ _, by simp [commandFault, ho], by simp [FaultedPorts]⟩
  · have hop : c.opcode < 64 := by omega
    cases hsh : Shape.ofCode c.shapeCode with
    | none =>
      have h5 : 5 ≤ c.shapeCode.toNat := (Shape.ofCode_eq_none_iff _).1 hsh
      rw [sendCommand_writes ha hp hop, launch_shapeFault hsh]
      exact ⟨_, Res.outcome_raise _ _, by simp [commandFault, ho, h5],
        by simp [FaultedPorts, commandWritten]⟩
    | some sh =>
      have h5 : ¬ 5 ≤ c.shapeCode.toNat := fun h => by
        rw [(Shape.ofCode_eq_none_iff _).2 h] at hsh; cases hsh
      rw [sendCommand_known ha hp hop hsh]
      exact ⟨_, Res.outcome_done _, by simp [commandFault, ho, h5, launched, commandWritten, hf],
        by simp [FaultedPorts, launched, commandWritten, hf]⟩

/-! ### The Data phase of ISSUE (R150, R151, R153) -/

/-- The first check of prepare a Data object fails, if any. -/
def prepareFault (p : Params) (d : Data) : Option FaultReason :=
  if !sizesOk d then some .configSize
  else if !sgInRange p d then some .configSgRange
  else if !sgCovers d then some .configSgShort
  else none

theorem prepareFault_eq_none {p : Params} {d : Data} (hsz : sizesOk d = true)
    (hrg : sgInRange p d = true) (hcv : sgCovers d = true) : prepareFault p d = none := by
  simp [prepareFault, hsz, hrg, hcv]

/-- The state after prepare accepted a Data object: the phase attached, its first block started. -/
def dataPrepared (d : Data) (s : State) : State :=
  { updData (fun x => { x with bytesXfered := 0 }) s with
    cursor := { blocksLeft := d.blocks, sgIdx := 0, sgOff := 0, accOff := 0 }
    dataEarly := false
    curData := true
    win := { s.win with blksize := blkSz16 d.blksz, dataCtrl := dataCtl s.params d.dir }
    trace := s.trace ++ [.w16 s.params.offBlksize (blkSz16 d.blksz),
      .w8 s.params.offDataCtrl (dataCtl s.params d.dir)] }

theorem prepareData_refused {s : State} {d : Data} (hd : dataOf s = some d) {r : FaultReason}
    (h : prepareFault s.params d = some r) : prepareData s = raise r s := by
  unfold prepareFault at h
  split_ifs at h with hsz hrg hcv <;> cases h
  · simp [prepareData, hd, hsz]
  · simp [prepareData, hd, hsz, hrg]
  · simp [prepareData, hd, hsz, hrg, hcv]

theorem prepareData_accepted {s : State} (ha : s.attached = true) (hp : paramsOk s.params = true)
    {d : Data} (hd : dataOf s = some d) (h : prepareFault s.params d = none) :
    prepareData s = done (dataPrepared d s) := by
  unfold prepareFault at h
  split_ifs at h with hsz hrg hcv
  simp [prepareData, hd, hsz, hrg, hcv, triggerBlock, writeBlksize_ok, writeDataCtrl_ok, ha, hp,
    dataPrepared]

/-! ### ISSUE (R125 to R132) -/

/-- The state in which ISSUE prepares its data: the slot taken, the watchdog armed (R126, R127). -/
def slotTaken (r : Role) (c : Command) (s : State) : State :=
  armTimer (timeoutUnits (hasData s c) c.timeoutMs) { s with curCmd := some r }

theorem ready_slotTaken {s : State} (hs : ready s = true) (r : Role) (c : Command) :
    ready (slotTaken r c s) = true := hs

theorem ready_dataPrepared {s : State} (hs : ready s = true) (d : Data) :
    ready (dataPrepared d s) = true := hs

/-- The Data object ISSUE prepares, if any (R28, R125). -/
def issuedData (s : State) (c : Command) : Option Data := if hasData s c then dataOf s else none

theorem issuedData_eq_none {s : State} {c : Command} (h : issuedData s c = none) :
    hasData s c = false := by
  cases hh : hasData s c with
  | false => rfl
  | true => simp_all [issuedData, hasData]

theorem issuedData_eq_some {s : State} {c : Command} {d : Data} (h : issuedData s c = some d) :
    hasData s c = true ∧ dataOf s = some d := by
  simpa [issuedData] using h

section
variable {s : State} {r : Role} {c : Command} (hs : ready s = true) (hc : cmdOf s r = some c)
include hs hc

theorem exec_issue_noData (h : issuedData s c = none) :
    exec (.issue r) s = (sendCommand c (slotTaken r c s)).outcome := by
  have hf := (ready_iff.1 hs).1
  simp [exec, execIssue, whenLive_live hf, issue, hc, slotTaken, issuedData_eq_none h]

theorem exec_issue_data {d : Data} (h : issuedData s c = some d) :
    exec (.issue r) s =
      ((prepareData (slotTaken r c s)).bind fun _ t => sendCommand c t).outcome := by
  have hf := (ready_iff.1 hs).1
  simp [exec, execIssue, whenLive_live hf, issue, hc, slotTaken, (issuedData_eq_some h).1]

theorem exec_issue_refused {d : Data} (h : issuedData s c = some d) {f : FaultReason}
    (hp : prepareFault s.params d = some f) :
    exec (.issue r) s = (raise f (slotTaken r c s) : Res Unit).outcome := by
  rw [exec_issue_data hs hc h,
    prepareData_refused (s := slotTaken r c s) (issuedData_eq_some h).2 hp, Res.bind_raise]

theorem exec_issue_prepared {d : Data} (h : issuedData s c = some d)
    (hp : prepareFault s.params d = none) :
    exec (.issue r) s = (sendCommand c (dataPrepared d (slotTaken r c s))).outcome := by
  obtain ⟨-, ha, hpar⟩ := ready_iff.1 (ready_slotTaken hs r c)
  rw [exec_issue_data hs hc h,
    prepareData_accepted (s := slotTaken r c s) ha hpar (issuedData_eq_some h).2 hp, Res.bind_done]

/-- R132, R255: ISSUE always ends the step; its fault is prepare's, else that of the register writes. -/
theorem exec_issue_ends : ∃ t, exec (.issue r) s = .next t ∧
    t.fault = ((issuedData s c).bind (prepareFault s.params)).or (commandFault c) ∧
    FaultedPorts c s t := by
  cases hd : issuedData s c with
  | none =>
    rw [exec_issue_noData hs hc hd]
    exact sendCommand_ends (ready_slotTaken hs r c) c
  | some d =>
    cases hp : prepareFault s.params d with
    | none =>
      rw [exec_issue_prepared hs hc hd hp]
      obtain ⟨t, ht, hfault, hports⟩ :=
        sendCommand_ends (ready_dataPrepared (ready_slotTaken hs r c) d) c
      exact ⟨t, ht, by simpa [hp] using hfault, hports⟩
    | some f =>
      rw [exec_issue_refused hs hc hd hp]
      refine ⟨_, Res.outcome_raise _ _, by simp [hp], ?_⟩
      have hne : f ≠ .configOpcode ∧ f ≠ .configShape := by
        unfold prepareFault at hp
        split_ifs at hp <;> cases hp <;> decide
      simp [FaultedPorts, hne]

end

/-- Settles O24: prepare accepts the Data object, and the command is sent from the state it leaves. -/
theorem issueWithData : Obligations.IssueWithData := by
  unfold Obligations.IssueWithData
  intro s r c q d sh hs hc hrole hq hd hsz hrg hcv hop hsh
  have hdata : hasData s c = true := by simp [hasData, hrole, dataOf, hq, hd]
  have hissued : issuedData s c = some d := by simp [issuedData, hdata, dataOf, hq, hd]
  obtain ⟨-, ha, hp⟩ := ready_iff.1 (ready_dataPrepared (ready_slotTaken hs r c) d)
  rw [exec_issue_prepared hs hc hissued (prepareFault_eq_none hsz hrg hcv),
    sendCommand_known ha hp hop hsh]
  simp [launched, commandWritten, dataPrepared, slotTaken, record, updData, armTimer, timeoutUnits, hdata,
    Config.wdDefaultUnits, Request.mapData, hq, hd, cmdByte, argWord, blkSz16]

/-- Settles O25: the faults in their order are prepare's and then those of the register writes. -/
theorem issueFaults : Obligations.IssueFaults := by
  unfold Obligations.IssueFaults
  intro s r c hs hc
  obtain ⟨t, ht, hfault, hopcode, hshape⟩ := exec_issue_ends hs hc
  refine ⟨t, ht, ?_, hopcode, hshape, exec_ne_next_of_fault⟩
  rw [hfault, issuedData]
  generalize (if hasData s c then dataOf s else none) = data
  cases data with
  | none => rfl
  | some d =>
    simp only [Option.bind_some, prepareFault, commandFault]
    split_ifs <;> rfl

/-! ### Error classes of a command mask (R54, R136) -/

theorem overlaps_iff (m k : Word) : overlaps m k = true ↔ m &&& k ≠ 0 := by simp [overlaps]

theorem overlaps_eq_false_iff (m k : Word) : overlaps m k = false ↔ m &&& k = 0 := by simp [overlaps]

section
variable {p : Params} {mask : Word}

theorem cmdError_timeout (h : mask &&& cmdErrTo p ≠ 0) : cmdError p mask = .timeout := by
  simp [cmdError, (overlaps_iff _ _).2 h]

theorem cmdError_protocolViolation (h : mask &&& cmdErrTo p = 0) (h' : mask &&& cmdErrProt p ≠ 0) :
    cmdError p mask = .protocolViolation := by
  simp [cmdError, (overlaps_eq_false_iff _ _).2 h, (overlaps_iff _ _).2 h']

theorem cmdError_ok (h : mask &&& cmdErrTo p = 0) (h' : mask &&& cmdErrProt p = 0) :
    cmdError p mask = .ok := by
  simp [cmdError, (overlaps_eq_false_iff _ _).2 h, (overlaps_eq_false_iff _ _).2 h']

end

/-! ### The command interrupt (R133 to R139) -/

theorem exec_cmdIrq {s : State} (hf : s.fault = none) (mask : Word) :
    exec (.cmdIrq mask) s = (onCommandInterrupt mask s).outcome := by
  simp [exec, execCmdIrq, whenLive_live hf]

theorem exec_finishCmd {s : State} (hf : s.fault = none) :
    exec .finishCmd s = (finishCommand s).outcome := by
  simp [exec, execFinishCmd, whenLive_live hf]

theorem onCommandInterrupt_spurious {s : State} (h : s.curCmd = none) (mask : Word) :
    onCommandInterrupt mask s = done (logEvent .spuriousCmd s) := by
  simp [onCommandInterrupt, h]

/-- The state from which finish_command runs: a busy-type command beside a Data phase is logged (R138). -/
def busyLogged (c : Command) (s : State) : State :=
  if Shape.ofCode c.shapeCode = some .shortBusy ∧ s.curData then logEvent .busyWithData s else s

theorem busyLogged_fault (c : Command) (s : State) : (busyLogged c s).fault = s.fault := by
  unfold busyLogged; split <;> rfl

section
variable {s : State} {r : Role} {c : Command} {mask : Word} (hcur : s.curCmd = some r)
  (hc : cmdOf s r = some c)
include hcur hc

/-- R136, R137: an error is recorded on the command and the request-finish work scheduled. -/
theorem onCommandInterrupt_error {e : Err} (he : cmdError s.params mask = e) (hne : e ≠ .ok) :
    onCommandInterrupt mask s =
      done (scheduleWork .finish (updCmd r (fun x => { x with error := e }) s)) := by
  simp [onCommandInterrupt, hcur, hc, he, hne]

/-- R139: with no error, CMD_COMPLETE runs finish_command. -/
theorem onCommandInterrupt_complete (he : cmdError s.params mask = .ok)
    (hb : mask &&& bitMask s.params.stCmdComplete ≠ 0) :
    onCommandInterrupt mask s = finishCommand (busyLogged c s) := by
  simp [onCommandInterrupt, hcur, hc, he, (overlaps_iff _ _).2 hb, busyLogged]

/-- R139: with no error and no CMD_COMPLETE nothing more happens. -/
theorem onCommandInterrupt_incomplete (he : cmdError s.params mask = .ok)
    (hb : mask &&& bitMask s.params.stCmdComplete = 0) :
    onCommandInterrupt mask s = done (busyLogged c s) := by
  simp [onCommandInterrupt, hcur, hc, he, (overlaps_eq_false_iff _ _).2 hb, busyLogged]

end

/-- Settles O27: the mask's error class decides, and then CMD_COMPLETE. -/
theorem commandInterrupt : Obligations.CommandInterrupt := by
  unfold Obligations.CommandInterrupt
  intro s mask r q c hf hcur hq hqc
  have hc : cmdOf s r = some c := by simp [cmdOf, hq, hqc]
  have error : ∀ {e : Err}, cmdError s.params mask = e → e ≠ .ok →
      exec (.cmdIrq mask) s = .next { s with
        req := some (Request.mapCommand q r (fun x => { x with error := e })), finishPend := true } := by
    intro e he hne
    rw [exec_cmdIrq hf, onCommandInterrupt_error hcur hc he hne]
    simp [scheduleWork, updCmd, hq]
  refine ⟨fun hto => error (cmdError_timeout hto) (by decide),
    fun hto hprot => error (cmdError_protocolViolation hto hprot) (by decide),
    fun hto hprot hb => ?_, fun hto hprot hb => ?_⟩
  · rw [exec_cmdIrq hf, onCommandInterrupt_complete hcur hc (cmdError_ok hto hprot) hb]
    exact (exec_finishCmd (s := busyLogged c s) (by rw [busyLogged_fault, hf])).symm
  · rw [exec_cmdIrq hf, onCommandInterrupt_incomplete hcur hc (cmdError_ok hto hprot) hb]
    rfl

/-! ### A status word of command bits only in the dispatcher (R190, R191) -/

theorem bitMask_and_bitMask_of_ne {m n : Nat} (h : m ≠ n) : bitMask m &&& bitMask n = 0 := by
  ext i hi
  simp [bitMask]
  omega

/-- The positions of the status bits are distinct (R31). -/
theorem paramsOk_status_nodup {p : Params} (h : paramsOk p = true) :
    [p.stCmdComplete, p.stXferComplete, p.stSpaceAvail, p.stDataAvail, p.stCardInsert,
      p.stCardRemove, p.stCardInt, p.stCmdTimeout, p.stCmdCrc, p.stCmdEndBit, p.stCmdIndex,
      p.stDataTimeout, p.stDataCrc, p.stDataEndBit].Nodup := by
  simp only [paramsOk, Bool.and_eq_true, decide_eq_true_eq] at h
  obtain ⟨⟨⟨⟨⟨⟨⟨⟨-, hn⟩, -⟩, -⟩, -⟩, -⟩, -⟩, -⟩, -⟩ := h
  exact hn

/-- No command bit is a card bit (R32). -/
theorem cmdMask_and_cardMask {p : Params} (h : paramsOk p = true) : cmdMask p &&& cardMask p = 0 := by
  have hn := paramsOk_status_nodup h
  have hbit : ∀ n, n ≠ p.stCardInsert → n ≠ p.stCardRemove → bitMask n &&& cardMask p = 0 := by
    intro n hi hr
    simp [cardMask, BitVec.and_or_distrib_left, bitMask_and_bitMask_of_ne hi, bitMask_and_bitMask_of_ne hr]
  simp only [List.nodup_cons, List.mem_cons, not_or] at hn
  have hcomplete := hbit p.stCmdComplete (by grind) (by grind)
  have htimeout := hbit p.stCmdTimeout (by grind) (by grind)
  have hcrc := hbit p.stCmdCrc (by grind) (by grind)
  have hend := hbit p.stCmdEndBit (by grind) (by grind)
  have hindex := hbit p.stCmdIndex (by grind) (by grind)
  simp [cmdMask, cmdErrTo, cmdErrProt, BitVec.and_or_distrib_right, hcomplete, htimeout, hcrc, hend, hindex]

/-- A word with no bit outside another keeps its bits there. -/
theorem and_eq_self_of_and_not_eq_zero {m k : Word} (h : m &&& ~~~k = 0) : m &&& k = m := by
  have hsplit : m &&& k ||| m &&& ~~~k = m := by
    rw [← BitVec.and_or_distrib_left, BitVec.or_not_self, BitVec.and_allOnes]
  simpa [h] using hsplit

/-- A word with no bit in another loses nothing where that one is stripped. -/
theorem and_not_eq_self_of_and_eq_zero {m k : Word} (h : m &&& k = 0) : m &&& ~~~k = m :=
  and_eq_self_of_and_not_eq_zero (by rwa [BitVec.not_not])

section
variable {p : Params} {mask : Word} (hp : paramsOk p = true) (hm : mask &&& ~~~cmdMask p = 0)
include hp hm

/-- A word of command bits only has no card bit. -/
theorem cardPart_of_cmdBits : cardPart p mask = 0 := by
  rw [cardPart, ← and_eq_self_of_and_not_eq_zero hm, BitVec.and_assoc, cmdMask_and_cardMask hp]
  exact BitVec.and_zero

theorem and_not_cardMask_of_cmdBits : mask &&& ~~~cardMask p = mask :=
  and_not_eq_self_of_and_eq_zero (cardPart_of_cmdBits hp hm)

theorem cmdPart_of_cmdBits : cmdPart p mask = mask := by
  rw [cmdPart, and_not_cardMask_of_cmdBits hp hm, and_eq_self_of_and_not_eq_zero hm]

theorem dataPart_of_cmdBits : dataPart p mask = 0 := by
  simp [dataPart, and_not_cardMask_of_cmdBits hp hm, hm]

theorem restPart_of_cmdBits : restPart p mask = 0 := by
  simp [restPart, and_not_cardMask_of_cmdBits hp hm, hm]

end

/-- The state after the dispatcher read INT_STATUS (R190). -/
def statusRead (s : State) : State := record (.r32 s.params.offIntStatus s.win.intStatus) s

/-- The state after a handler's bits were written back to INT_STATUS (R191). -/
def acknowledged (bits : Word) (s : State) : State :=
  { record (.w32 s.params.offIntStatus bits) s with
    win := { s.win with intStatus := s.win.intStatus &&& ~~~bits } }

theorem exec_irq {s : State} (hs : ready s = true) : exec .irq s = (dispatch s).outcome := by
  obtain ⟨hf, ha, -⟩ := ready_iff.1 hs
  simp [exec, execIrq, whenEnabled, whenLive_live hf, ha]

theorem dispatch_eq {s : State} (hs : ready s = true) (hw : spuriousWord s.win.intStatus = false) :
    dispatch s = dispatchWord s.win.intStatus (statusRead s) := by
  obtain ⟨-, ha, hp⟩ := ready_iff.1 hs
  simp [dispatch, readReg32_ok hp ha .intStatus rfl rfl, show32, hw, statusRead, regOff]

theorem acknowledge_zero (handler : State → Res Unit) (s : State) :
    acknowledge 0 handler s = done s := by
  simp [acknowledge]

theorem acknowledge_bits {s : State} (hs : ready s = true) {bits : Word} (hb : bits ≠ 0)
    (handler : State → Res Unit) :
    acknowledge bits handler s = handler (acknowledged bits s) := by
  obtain ⟨-, ha, hp⟩ := ready_iff.1 hs
  rw [acknowledge, if_neg hb, writeIntStatus_ok hp ha, Res.bind_done]
  rfl

section
variable {s : State} {mask : Word} (hs : ready s = true) (hm : mask &&& ~~~cmdMask s.params = 0)
include hs hm

/-- A word of command bits only is acknowledged whole and handed to the command interrupt. -/
theorem dispatchFront_of_cmdBits (h0 : mask ≠ 0) :
    dispatchFront mask s = onCommandInterrupt mask (acknowledged mask s) := by
  obtain ⟨-, -, hp⟩ := ready_iff.1 hs
  rw [dispatchFront, cardPart_of_cmdBits hp hm, acknowledge_zero, Res.bind_done,
    cmdPart_of_cmdBits hp hm, acknowledge_bits hs h0]

/-- It leaves the rest of the dispatch nothing to do. -/
theorem dispatchBack_of_cmdBits : dispatchBack mask s = done s := by
  obtain ⟨-, -, hp⟩ := ready_iff.1 hs
  rw [dispatchBack, dataPart_of_cmdBits hp hm, acknowledge_zero, Res.bind_done,
    restPart_of_cmdBits hp hm, acknowledge_zero]

end

/-- Settles O26: the command interrupt only logs, and in a dispatch it is all that runs. -/
theorem spuriousCommand : Obligations.SpuriousCommand := by
  unfold Obligations.SpuriousCommand
  intro s mask hf hcur
  refine ⟨?_, ?_⟩
  · rw [exec_cmdIrq hf, onCommandInterrupt_spurious hcur]
    rfl
  · rintro hs rfl h0 hm hones
    have hw : spuriousWord s.win.intStatus = false :=
      Bool.or_eq_false_iff.2 ⟨beq_eq_false_iff_ne.2 h0, beq_eq_false_iff_ne.2 hones⟩
    have hcmd := onCommandInterrupt_spurious (s := acknowledged s.win.intStatus (statusRead s)) hcur
      s.win.intStatus
    have hback := dispatchBack_of_cmdBits
      (s := logEvent .spuriousCmd (acknowledged s.win.intStatus (statusRead s))) hs hm
    rw [exec_irq hs, dispatch_eq hs hw, dispatchWord, dispatchFront_of_cmdBits (s := statusRead s) hs hm h0,
      hcmd, Res.bind_done, hback]
    simp [acknowledged, statusRead, logEvent, record]

end Sys2Proof.Machine

/-! PREPARE's size check and FINISH_DATA (spec/42_data_session.md R150, R151, R166 to R171): how
prepare ends within the limits, that an abort sequence always completes, one equation per case of finish,
and the proofs of SizeCheck and FinishData. -/

namespace Sys2Proof.Machine

/-! ### The size check of PREPARE (R151) -/

theorem sizesOk_iff {d : Data} : sizesOk d = true ↔
    d.blksz ≤ 512 ∧ d.blocks ≤ 65536 ∧ d.blksz * d.blocks ≤ 524288 ∧ 0 < d.blksz ∧ 0 < d.blocks := by
  simp only [sizesOk, Bool.and_eq_true, decide_eq_true_eq, bne_iff_ne, ← Nat.pos_iff_ne_zero, and_assoc]
  rfl

theorem prepareFault_of_sizes {p : Params} {d : Data} (h : sizesOk d = false) :
    prepareFault p d = some .configSize := by
  simp [prepareFault, h]

theorem prepareFault_ne_configSize {p : Params} {d : Data} (h : sizesOk d = true) :
    prepareFault p d ≠ some .configSize := by
  rw [prepareFault, if_neg (by simp [h])]
  split_ifs <;> decide

theorem exec_prepare {s : State} (hf : s.fault = none) :
    exec .prepare s = (prepareData s).outcome := by
  simp [exec, execPrepare, whenLive_live hf]

/-- The state in which prepare starts the first block of an accepted Data object (R150). -/
def phaseAttached (d : Data) (s : State) : State :=
  { updData (fun x => { x with bytesXfered := 0 }) s with
    cursor := { blocksLeft := d.blocks, sgIdx := 0, sgOff := 0, accOff := 0 }
    dataEarly := false
    curData := true }

/-- R150: where the checks pass, prepare starts the first block, whether or not the window answers. -/
theorem prepareData_triggers {s : State} {d : Data} (hd : dataOf s = some d)
    (h : prepareFault s.params d = none) :
    prepareData s = triggerBlock (blkSz16 d.blksz) d.dir (phaseAttached d s) := by
  unfold prepareFault at h
  split_ifs at h with hsz hrg hcv
  simp [prepareData, hd, hsz, hrg, hcv, phaseAttached]

/-- An 8-bit write always ends, and its only fault is an access the window does not have (R62). -/
theorem write8_ends (off : Nat) (v : Byte) (s : State) :
    ∃ t, (write8 off v s).outcome = .next t ∧
      (t.fault = s.fault ∨ t.fault = some .windowAccess) := by
  obtain h | ⟨r, h⟩ := write8_cases off v s <;> rw [h]
  · exact ⟨_, Res.outcome_raise _ _, .inr rfl⟩
  · exact ⟨_, Res.outcome_done _, .inl rfl⟩

/-- R152: trigger_block always ends, and its only fault is one of its two writes'. -/
theorem triggerBlock_ends (size : Half) (dir : Dir) (s : State) :
    ∃ t, (triggerBlock size dir s).outcome = .next t ∧
      (t.fault = s.fault ∨ t.fault = some .windowAccess) := by
  rw [triggerBlock, writeReg16]
  obtain h | h := write16_cases (regOff s.params .blksize) size s <;> rw [h]
  · exact ⟨_, Res.outcome_raise _ _, .inr rfl⟩
  · exact write8_ends _ _ _

/-- Settles O30: the size check is prepare's first; past it only the scatter list or the window can fault. -/
theorem sizeCheck : Obligations.SizeCheck := by
  unfold Obligations.SizeCheck
  intro s d hf hd
  rw [exec_prepare hf]
  refine ⟨fun hbad => ?_, fun h1 h2 h3 h4 h5 => ?_⟩
  · have hsz : sizesOk d = false := by
      rw [Bool.eq_false_iff, ne_eq, sizesOk_iff]
      omega
    rw [prepareData_refused hd (prepareFault_of_sizes hsz)]
    rfl
  · have hsz : sizesOk d = true := sizesOk_iff.2 ⟨h1, h2, h3, h4, h5⟩
    cases hp : prepareFault s.params d with
    | none =>
      rw [prepareData_triggers hd hp]
      obtain ⟨t, ht, hfault⟩ := triggerBlock_ends (blkSz16 d.blksz) d.dir (phaseAttached d s)
      have hstart : (phaseAttached d s).fault = none := hf
      refine ⟨t, ht, ?_⟩
      obtain h | h := hfault <;> simp [h, hstart]
    | some f =>
      rw [prepareData_refused hd hp]
      exact ⟨_, Res.outcome_raise _ _, fun h => prepareFault_ne_configSize hsz (hp.trans h)⟩

/-! ### The abort sequence always completes (R214) -/

theorem ready_readAbort {s : State} (hs : ready s = true) :
    ∃ v t, readReg8 .abort s = .ok v t ∧ ready t = true := by
  obtain ⟨hf, ha, hp⟩ := ready_iff.1 hs
  exact ⟨_, _, readReg8_ok hp ha .abort rfl rfl, ready_iff.2 (by simp [hf, ha, hp])⟩

theorem pollAbort_completes (flag : Byte) (n : Nat) {s : State} (hs : ready s = true) :
    ∃ t, pollAbort flag n s = done t ∧ ready t = true := by
  induction n generalizing s with
  | zero => exact ⟨_, rfl, hs⟩
  | succ n ih =>
    obtain ⟨v, t, hread, ht⟩ := ready_readAbort hs
    rw [pollAbort, hread, Res.bind_ok]
    split
    · exact ⟨t, rfl, ht⟩
    · exact ih ht

theorem abortSequence_completes (k : AbortKind) {s : State} (hs : ready s = true) :
    ∃ t, abortSequence k s = done t ∧ ready t = true := by
  obtain ⟨-, ha, hp⟩ := ready_iff.1 hs
  rw [abortSequence, writeReg8_ok hp ha .abort rfl rfl, Res.bind_done]
  exact pollAbort_completes _ _ hs

theorem exec_abortSeq {s : State} (hf : s.fault = none) (k : AbortKind) :
    exec (.abortSeq k) s = (abortSequence k s).outcome := by
  simp [exec, execAbortSeq, whenLive_live hf]

/-- R169: the two abort sequences run to their ends, cmd-abort first, as the steps of their own do. -/
theorem abortBoth_completes {s : State} (hs : ready s = true) :
    ∃ t u, exec (.abortSeq .cmd) s = .next t ∧ exec (.abortSeq .data) t = .next u ∧
      ready t = true ∧ ready u = true ∧ abortBoth s = done u := by
  obtain ⟨t, hcmd, ht⟩ := abortSequence_completes .cmd hs
  obtain ⟨u, hdata, hu⟩ := abortSequence_completes .data ht
  refine ⟨t, u, ?_, ?_, ht, hu, ?_⟩
  · rw [exec_abortSeq (ready_iff.1 hs).1, hcmd, Res.outcome_done]
  · rw [exec_abortSeq (ready_iff.1 ht).1, hdata, Res.outcome_done]
  · rw [abortBoth, hcmd, Res.bind_done, hdata]

/-! ### FINISH_DATA (R166 to R171) -/

/-- R168: a stop is wanted where one is present and no SBC precedes it or, under policy b, on an error. -/
theorem stopWanted_iff {p : Params} {q : Request} {d : Data} {e : Err} :
    stopWanted p q d e = true ↔
      d.stop ≠ none ∧ (q.sbc = none ∨ (e ≠ .ok ∧ p.stopPolicy = .b)) := by
  cases hp : p.stopPolicy <;> simp [stopWanted, hp, Option.isSome_iff_ne_none, or_comm]

/-- The state after finish detached the Data phase and recorded its outcome (R166, R167). -/
def dataClosed (e : Err) (s : State) : State :=
  updData (closeData e) { s with curData := false, dataEarly := false }

theorem exec_finishData {s : State} (hf : s.fault = none) (e : Err) :
    exec (.finishData e) s = (finishData e s).outcome := by
  simp [exec, execFinishData, whenLive_live hf]

theorem exec_issue {s : State} (hf : s.fault = none) (r : Role) :
    exec (.issue r) s = (issue r s).outcome := by
  simp [exec, execIssue, whenLive_live hf]

section
variable {s : State} {e : Err} {q : Request} {d : Data} (hq : s.req = some q) (hd : q.data = some d)
include hq hd

theorem dataClosed_eq : dataClosed e s = { s with
    req := some { q with data := some (closeData e d) }
    curData := false
    dataEarly := false } := by
  simp [dataClosed, updData, Request.mapData, hq, hd]

/-- R171: with no stop to issue the request-finish work is scheduled. -/
theorem finishData_noStop (h : stopWanted s.params q d e = false) :
    finishData e s = done (scheduleWork .finish (dataClosed e s)) := by
  simp [finishData, hq, hd, h, dataClosed]

/-- R169, R170: with no error the stop is issued without an abort. -/
theorem finishData_stop_ok (h : stopWanted s.params q d .ok = true) :
    finishData .ok s = issue .stop (dataClosed .ok s) := by
  simp [finishData, hq, hd, h, dataClosed]

/-- R169, R170: after an error the two aborts run before the stop's issue. -/
theorem finishData_stop_error (h : stopWanted s.params q d e = true) (he : e ≠ .ok) :
    finishData e s = (abortBoth (dataClosed e s)).bind fun _ u => issue .stop u := by
  simp [finishData, hq, hd, h, he, dataClosed]

end

/-- Settles O34: one equation of finish per case; the aborts complete, so the stop's issue is reached. -/
theorem DataSession.finishData : Obligations.FinishData := by
  unfold Obligations.FinishData
  intro s e q d hs hq hd closed stops
  have heq : dataClosed e s = closed := dataClosed_eq hq hd
  have hwanted : stopWanted s.params q d e = true ↔ stops := stopWanted_iff
  have hready : ready closed = true := hs
  rw [exec_finishData (ready_iff.1 hs).1]
  refine ⟨fun hno => ?_, fun hstop he => ?_, fun hstop he => ?_⟩
  · have hnone : stopWanted s.params q d e = false := Bool.eq_false_iff.2 (mt hwanted.1 hno)
    rw [finishData_noStop hq hd hnone, heq]
    rfl
  · subst he
    rw [finishData_stop_ok hq hd (hwanted.2 hstop), heq, exec_issue (ready_iff.1 hready).1]
  · obtain ⟨t, u, hcmd, hdata, ht, hu, hboth⟩ := abortBoth_completes hready
    have hfu := (ready_iff.1 hu).1
    refine ⟨t, u, hcmd, hdata, (ready_iff.1 ht).1, hfu, ?_⟩
    rw [finishData_stop_error hq hd (hwanted.2 hstop) he, heq, hboth, Res.bind_done, exec_issue hfu]

end Sys2Proof.Machine

/-! The walk of a block over its scatter list (spec/43_transfer_port.md R179, R183, R184): a block that runs
off the list raises, a list with the block's bytes left reaches them, and the proof of ListExhausted. -/

namespace Sys2Proof.Machine

/-! ### A list that falls short of the block (R183) -/

/-- The port can be accessed, and the list does not reach n bytes from the cursor. -/
structure RunsOff (sg : List SgEntry) (n : Nat) (s : State) : Prop where
  attached : s.attached = true
  params : paramsOk s.params = true
  short : (blockAddrs s.params sg n s.cursor).length ≠ n

/-- The addresses of a block depend on the cursor's position in the list alone. -/
theorem blockAddrs_congr (p : Params) (sg : List SgEntry) (n : Nat) {c c' : Cursor}
    (hi : c'.sgIdx = c.sgIdx) (ho : c'.sgOff = c.sgOff) :
    blockAddrs p sg n c' = blockAddrs p sg n c := by
  induction n generalizing c c' with
  | zero => rfl
  | succ n ih =>
    have hstep : blockAddrs p sg n { seek sg c' with sgOff := (seek sg c').sgOff + 1 } =
        blockAddrs p sg n { seek sg c with sgOff := (seek sg c).sgOff + 1 } :=
      ih (by simp [seek, hi, ho]) (by simp [seek, hi, ho])
    have haddr : addrAt p sg (seek sg c') = addrAt p sg (seek sg c) := by simp [addrAt, seek, hi, ho]
    simp only [blockAddrs, haddr, hstep]

theorem RunsOff.congr {sg : List SgEntry} {n : Nat} {s t : State} (h : RunsOff sg n s)
    (ha : t.attached = s.attached) (hp : t.params = s.params)
    (hi : t.cursor.sgIdx = s.cursor.sgIdx) (ho : t.cursor.sgOff = s.cursor.sgOff) : RunsOff sg n t where
  attached := ha.trans h.attached
  params := hp ▸ h.params
  short := by rw [hp, blockAddrs_congr _ sg n hi ho]; exact h.short

/-- The operation raised ConfigSgShort. -/
def Res.RaisesShort {α : Type} (x : Res α) : Prop :=
  ∃ t, x = .raised t ∧ t.fault = some .configSgShort

theorem Res.RaisesShort.bind {α β : Type} {x : Res α} (h : x.RaisesShort) (f : α → State → Res β) :
    (x.bind f).RaisesShort := by
  obtain ⟨t, rfl, ht⟩ := h
  exact ⟨t, rfl, ht⟩

theorem Res.RaisesShort.outcome {x : Res Unit} (h : x.RaisesShort) :
    ∃ t, x.outcome = .next t ∧ t.fault = some .configSgShort := by
  obtain ⟨t, rfl, ht⟩ := h
  exact ⟨t, rfl, ht⟩

/-- R183: where the list falls short, the next byte raises, or the list falls short after it. -/
theorem curAddr_runsOff {sg : List SgEntry} {n : Nat} {s : State} (h : RunsOff sg (n + 1) s) :
    (curAddr sg s).RaisesShort ∨
      ∃ a t, curAddr sg s = .ok a t ∧ RunsOff sg n (bumpOff t) := by
  have hshort := h.short
  rw [blockAddrs] at hshort
  cases ha : addrAt s.params sg (seek sg s.cursor) with
  | none => exact .inl ⟨_, by simp only [curAddr, ha]; rfl, rfl⟩
  | some a =>
    simp only [ha, List.length_cons, ne_eq, Nat.add_right_cancel_iff] at hshort
    exact .inr ⟨a, { s with cursor := seek sg s.cursor }, by simp only [curAddr, ha],
      h.attached, h.params, hshort⟩

/-! ### The byte loops off the list's end (R177, R178, R183) -/

theorem refill_runsOff {sg : List SgEntry} {n : Nat} {s : State} (h : RunsOff sg n s) (acc : Word)
    (avail : Nat) : ∃ x t, refill acc avail s = .ok x t ∧ RunsOff sg n t := by
  unfold refill
  split
  · rw [readReg32_ok h.params h.attached .data rfl rfl]
    exact ⟨_, _, rfl, h.congr (by simp) (by simp) (by simp) (by simp)⟩
  · exact ⟨_, _, rfl, h⟩

theorem flushFull_runsOff {sg : List SgEntry} {n : Nat} {s : State} (h : RunsOff sg n s) (acc : Word) :
    ∃ acc' t, flushFull acc s = .ok acc' t ∧ RunsOff sg n t := by
  unfold flushFull
  split
  · rw [writeReg32_ok h.params h.attached .data rfl rfl]
    exact ⟨_, _, rfl, h.congr rfl rfl rfl rfl⟩
  · exact ⟨_, _, rfl, h⟩

theorem readBytes_raisesShort {sg : List SgEntry} {n : Nat} {s : State} (h : RunsOff sg n s) (acc : Word)
    (avail : Nat) : (readBytes sg n acc avail s).RaisesShort := by
  induction n generalizing acc avail s with
  | zero => exact absurd rfl h.short
  | succ n ih =>
    obtain ⟨x, s1, hrefill, h1⟩ := refill_runsOff h acc avail
    simp only [readBytes, hrefill, Res.bind_ok]
    obtain hraise | ⟨a, s2, haddr, h2⟩ := curAddr_runsOff h1
    · exact hraise.bind _
    · have hstored : RunsOff sg n (bumpOff (memWrite a (byteOf x.1 0) s2)) := h2.congr rfl rfl rfl rfl
      rw [haddr, Res.bind_ok]
      exact ih hstored _ _

theorem writeBytes_raisesShort {sg : List SgEntry} {n : Nat} {s : State} (h : RunsOff sg n s)
    (acc : Word) : (writeBytes sg n acc s).RaisesShort := by
  induction n generalizing acc s with
  | zero => exact absurd rfl h.short
  | succ n ih =>
    simp only [writeBytes]
    obtain hraise | ⟨a, s1, haddr, h1⟩ := curAddr_runsOff h
    · exact hraise.bind _
    · let s2 := bumpOff (memRead a s1).2
      have h2 : RunsOff sg n (setAccOff (s2.cursor.accOff + 1) s2) := h1.congr rfl rfl rfl rfl
      obtain ⟨acc', s3, hflush, h3⟩ :=
        flushFull_runsOff h2 (intoLane acc s2.cursor.accOff (memRead a s1).1)
      rw [haddr, Res.bind_ok, hflush, Res.bind_ok]
      exact ih h3 _

theorem readBlock_raisesShort {sg : List SgEntry} {n : Nat} {s : State} (h : RunsOff sg n s) :
    (readBlock sg n s).RaisesShort :=
  (readBytes_raisesShort h 0 0).bind _

theorem writeBlock_raisesShort {sg : List SgEntry} {n : Nat} {s : State} (h : RunsOff sg n s) :
    (writeBlock sg n s).RaisesShort :=
  have hstart : RunsOff sg n (setAccOff 0 s) := h.congr rfl rfl rfl rfl
  (writeBytes_raisesShort hstart 0).bind _

/-! ### The two block steps -/

theorem exec_pioReadBlock {s : State} {d : Data} (hf : s.fault = none) (hd : dataOf s = some d) :
    exec .pioReadBlock s = (readBlock d.sg d.blksz s).outcome := by
  simp [exec, execPioReadBlock, whenLive_live hf, hd]

theorem exec_pioWriteBlock {s : State} {d : Data} (hf : s.fault = none) (hd : dataOf s = some d) :
    exec .pioWriteBlock s = (writeBlock d.sg d.blksz s).outcome := by
  simp [exec, execPioWriteBlock, whenLive_live hf, hd]

theorem reaches_eq_true_iff {s : State} {d : Data} :
    reaches s d = true ↔ (blockAddrs s.params d.sg d.blksz s.cursor).length = d.blksz := by
  simp [reaches]

theorem runsOff_of_reaches_false {s : State} {d : Data} (hs : ready s = true)
    (h : reaches s d = false) : RunsOff d.sg d.blksz s := by
  obtain ⟨-, ha, hp⟩ := ready_iff.1 hs
  exact ⟨ha, hp, mt reaches_eq_true_iff.2 (Bool.eq_false_iff.1 h)⟩

/-! ### A list with the block's bytes left (R179, R184) -/

theorem sgTotal_drop_of_some {sg : List SgEntry} {i : Nat} {e : SgEntry} (h : sg[i]? = some e) :
    sgTotal (sg.drop i) = e.len + sgTotal (sg.drop (i + 1)) := by
  obtain ⟨hi, rfl⟩ := List.getElem?_eq_some_iff.1 h
  rw [List.drop_eq_getElem_cons hi]
  simp only [sgTotal, List.map_cons, List.sum_cons]

theorem sgLeft_pastEnd {sg : List SgEntry} {c : Cursor} (h : sg[c.sgIdx]? = none) : sgLeft sg c = 0 := by
  simp [sgLeft, sgTotal, List.drop_eq_nil_of_le (List.getElem?_eq_none_iff.1 h)]

/-- The cursor's offset does not exceed the entry it names, if it names one. -/
def OffInEntry (sg : List SgEntry) (c : Cursor) : Prop := ∀ e, sg[c.sgIdx]? = some e → c.sgOff ≤ e.len

theorem offInEntry_of_cursorIn {sg : List SgEntry} {c : Cursor} (h : cursorIn sg c = true) :
    OffInEntry sg c := fun e he => by
  simpa [cursorIn, he] using h

/-- Moving past exhausted entries passes no byte, and ends before the last byte of an entry or past the
list, once the fuel covers the entries left. -/
theorem seekFrom_spec (sg : List SgEntry) (fuel i o : Nat) (hfuel : sg.length ≤ i + fuel)
    (ho : ∀ e, sg[i]? = some e → o ≤ e.len) :
    sgTotal (sg.drop (seekFrom sg fuel i o).1) - (seekFrom sg fuel i o).2 = sgTotal (sg.drop i) - o ∧
      ∀ e, sg[(seekFrom sg fuel i o).1]? = some e → (seekFrom sg fuel i o).2 < e.len := by
  induction fuel generalizing i o with
  | zero =>
    have hnone : sg[i]? = none := List.getElem?_eq_none_iff.2 hfuel
    simp [seekFrom, hnone]
  | succ fuel ih =>
    cases he : sg[i]? with
    | none => simp [seekFrom, he]
    | some e =>
      by_cases hend : o = e.len
      · have hnext := ih (i + 1) 0 (by omega) (fun _ _ => Nat.zero_le _)
        simpa [seekFrom, he, hend, sgTotal_drop_of_some he] using hnext
      · have hlt : o < e.len := Nat.lt_of_le_of_ne (ho e he) hend
        simpa [seekFrom, he, hend] using hlt

theorem sgLeft_seek {sg : List SgEntry} {c : Cursor} (h : OffInEntry sg c) :
    sgLeft sg (seek sg c) = sgLeft sg c :=
  (seekFrom_spec sg sg.length c.sgIdx c.sgOff (Nat.le_add_left _ _) h).1

theorem seek_sgOff_lt {sg : List SgEntry} {c : Cursor} (h : OffInEntry sg c) {e : SgEntry}
    (he : sg[(seek sg c).sgIdx]? = some e) : (seek sg c).sgOff < e.len :=
  (seekFrom_spec sg sg.length c.sgIdx c.sgOff (Nat.le_add_left _ _) h).2 e he

/-- R179: a list with n bytes left from the cursor has n more addresses. -/
theorem length_blockAddrs (p : Params) {sg : List SgEntry} {n : Nat} {c : Cursor}
    (hc : OffInEntry sg c) (hn : n ≤ sgLeft sg c) : (blockAddrs p sg n c).length = n := by
  induction n generalizing c with
  | zero => rfl
  | succ n ih =>
    rw [← sgLeft_seek hc] at hn
    cases he : sg[(seek sg c).sgIdx]? with
    | none =>
      rw [sgLeft_pastEnd he] at hn
      omega
    | some e =>
      have hlt : (seek sg c).sgOff < e.len := seek_sgOff_lt hc he
      have hnext : OffInEntry sg { seek sg c with sgOff := (seek sg c).sgOff + 1 } := fun e' he' => by
        cases he.symm.trans he'
        exact hlt
      have hleft : n ≤ sgLeft sg { seek sg c with sgOff := (seek sg c).sgOff + 1 } := by
        simp only [sgLeft] at hn ⊢
        omega
      simp [blockAddrs, addrAt, he, ih hnext hleft]

theorem dataPhaseOk_of_invOk {s : State} (hinv : invOk s = true) (hf : s.fault = none) :
    dataPhaseOk s = true := by
  simp only [invOk, engineOk, hf, Option.isSome_none, Bool.false_or, Bool.and_eq_true] at hinv
  tauto

/-- What the invariant says of a live state with an attached Data phase: the cursor stands in the list,
and the list has the bytes of the blocks left (R39, R153). -/
theorem cursor_of_invOk {s : State} {d : Data} (hinv : invOk s = true) (hf : s.fault = none)
    (hcur : s.curData = true) (hd : dataOf s = some d) :
    OffInEntry d.sg s.cursor ∧ d.blksz * s.cursor.blocksLeft ≤ sgLeft d.sg s.cursor := by
  have hphase := dataPhaseOk_of_invOk hinv hf
  simp only [dataPhaseOk, hcur, hd, Bool.not_true, Bool.false_or, Bool.and_eq_true,
    decide_eq_true_eq] at hphase
  obtain ⟨⟨-, hin⟩, hleft⟩ := hphase
  exact ⟨offInEntry_of_cursorIn hin, hleft⟩

/-- Settles O38: off the list's end the byte loops raise; the invariant keeps the bytes of every block left
in the list, one block's among them. -/
theorem listExhausted : Obligations.ListExhausted := by
  unfold Obligations.ListExhausted
  refine ⟨fun s d hs hd hr => ?_, fun s d hinv hf hcur hleft hd => ?_⟩
  · have hf := (ready_iff.1 hs).1
    have hoff := runsOff_of_reaches_false hs hr
    rw [exec_pioReadBlock hf hd, exec_pioWriteBlock hf hd]
    exact ⟨(readBlock_raisesShort hoff).outcome, (writeBlock_raisesShort hoff).outcome⟩
  · obtain ⟨hin, hbytes⟩ := cursor_of_invOk hinv hf hcur hd
    have hblock : d.blksz ≤ d.blksz * s.cursor.blocksLeft := Nat.le_mul_of_pos_right _ hleft
    exact reaches_eq_true_iff.2 (length_blockAddrs s.params hin (hblock.trans hbytes))

end Sys2Proof.Machine

/-! The dispatcher (spec/44_dispatcher.md R190 to R196): every rule it can reach goes on in a ready state or
ends with a fault set, so the four categories run one after another as steps do, and the proofs of
SpuriousStatus and DispatchOrder. -/

namespace Sys2Proof.Machine

/-! ### A spurious word (R192) -/

theorem dispatch_spurious {s : State} (hs : ready s = true) (hw : spuriousWord s.win.intStatus = true) :
    dispatch s = done (statusRead s) := by
  obtain ⟨-, ha, hp⟩ := ready_iff.1 hs
  simp [dispatch, readReg32_ok hp ha .intStatus rfl rfl, show32, hw, statusRead, regOff]

/-- Settles O40: the dispatcher reads the word and goes no further. -/
theorem spuriousStatus : Obligations.SpuriousStatus := by
  unfold Obligations.SpuriousStatus
  intro s hs hst
  have hw : spuriousWord s.win.intStatus = true := by simpa [spuriousWord] using hst
  rw [exec_irq hs, dispatch_spurious hs hw]
  rfl

/-! ### The categories of a status word (R32, R190) -/

theorem getElem_bitMask {n i : Nat} (hi : i < 32) : (bitMask n)[i] = decide (i = n) := by
  rw [Bool.eq_iff_iff]
  simp [bitMask]
  omega

section
variable {p : Params} (hp : paramsOk p = true)
include hp

/-- No data bit is a card bit or a command bit (R32): a bit of both would be two distinct positions. -/
theorem dataMask_and_cardMask_or_cmdMask : dataMask p &&& (cardMask p ||| cmdMask p) = 0 := by
  have hn := paramsOk_status_nodup hp
  simp only [List.nodup_cons, List.mem_cons, not_or] at hn
  ext i hi
  simp only [dataMask, dataXfer, dataErr, dataErrTo, dataErrProt, cardMask, cmdMask, cmdErrTo, cmdErrProt,
    BitVec.getElem_and, BitVec.getElem_or, getElem_bitMask hi, BitVec.ofNat_eq_ofNat, BitVec.getElem_zero]
  grind

theorem cmdPart_eq (st : Word) : cmdPart p st = st &&& cmdMask p := by
  rw [cmdPart, BitVec.and_assoc, BitVec.and_comm (~~~_),
    and_not_eq_self_of_and_eq_zero (cmdMask_and_cardMask hp)]

theorem dataPart_eq (st : Word) : dataPart p st = st &&& dataMask p := by
  rw [dataPart, BitVec.and_assoc st, ← BitVec.not_or, BitVec.and_assoc st, BitVec.and_comm (~~~_),
    and_not_eq_self_of_and_eq_zero (dataMask_and_cardMask_or_cmdMask hp)]

end

theorem restPart_eq (p : Params) (st : Word) :
    restPart p st = st &&& ~~~(cardMask p ||| cmdMask p ||| dataMask p) := by
  simp [restPart, BitVec.not_or, BitVec.and_assoc]

/-! ### Rules that go on ready or end with a fault set (R12, R253) -/

/-- A ready state under the parameters p. -/
def ReadyWith (p : Params) (s : State) : Prop := ready s = true ∧ s.params = p

/-- The operation goes on in a ready state under the parameters p, or raised a fault. -/
def Res.Proceeds {α : Type} (p : Params) (x : Res α) : Prop :=
  x.Ends (fun _ t => ReadyWith p t) (fun t => t.fault.isSome = true)

section
variable {p : Params} {s : State}

theorem Res.Proceeds.bind {α β : Type} {x : Res α} {f : α → State → Res β} (h : x.Proceeds p)
    (hf : ∀ a t, ReadyWith p t → (f a t).Proceeds p) : (x.bind f).Proceeds p :=
  Res.Ends.bind h hf

theorem raise_proceeds {α : Type} (c : FaultReason) (s : State) : (raise c s : Res α).Proceeds p := rfl

theorem stuck_proceeds {α : Type} (r : Refusal) : (Res.stuck r : Res α).Proceeds p := trivial

/-! #### The register window -/

theorem ReadyWith.draw (hs : ReadyWith p s) : ReadyWith p (draw s).2 := by
  unfold Machine.draw
  split <;> exact hs

theorem ReadyWith.show8 (hs : ReadyWith p s) (r : Reg) : ReadyWith p (show8 r s).2 := by
  cases r with
  | abort => exact hs.draw
  | _ => exact hs

theorem ReadyWith.show32 (hs : ReadyWith p s) (r : Reg) : ReadyWith p (show32 r s).2 := by
  cases r with
  | present | resp0 | resp1 | resp2 | resp3 | data => exact hs.draw
  | _ => exact hs

theorem readReg8_proceeds (hs : ReadyWith p s) (r : Reg) : (readReg8 r s).Proceeds p := by
  rw [readReg8]
  obtain h | ⟨r', -, h⟩ := read8_cases (regOff s.params r) s <;> rw [h]
  · exact raise_proceeds _ _
  · exact hs.show8 r'

theorem readReg32_proceeds (hs : ReadyWith p s) (r : Reg) : (readReg32 r s).Proceeds p := by
  rw [readReg32]
  obtain h | ⟨r', -, h⟩ := read32_cases (regOff s.params r) s <;> rw [h]
  · exact raise_proceeds _ _
  · exact hs.show32 r'

theorem writeReg8_proceeds (hs : ReadyWith p s) (r : Reg) (v : Byte) : (writeReg8 r v s).Proceeds p := by
  rw [writeReg8]
  obtain h | ⟨r', h⟩ := write8_cases (regOff s.params r) v s <;> rw [h]
  · exact raise_proceeds _ _
  · exact hs

theorem writeReg32_proceeds (hs : ReadyWith p s) (r : Reg) (v : Word) :
    (writeReg32 r v s).Proceeds p := by
  rw [writeReg32]
  obtain h | ⟨r', h⟩ := write32_cases (regOff s.params r) v s <;> rw [h]
  · exact raise_proceeds _ _
  · exact hs

theorem writeReg16_proceeds (hs : ReadyWith p s) (r : Reg) (v : Half) :
    (writeReg16 r v s).Proceeds p := by
  rw [writeReg16]
  obtain h | h := write16_cases (regOff s.params r) v s <;> rw [h]
  · exact raise_proceeds _ _
  · exact hs

/-! #### The transfer port (spec/43_transfer_port.md) -/

theorem curAddr_proceeds (hs : ReadyWith p s) (sg : List SgEntry) : (curAddr sg s).Proceeds p := by
  simp only [curAddr]
  split
  · exact hs
  · exact raise_proceeds _ _

theorem refill_proceeds (hs : ReadyWith p s) (acc : Word) (avail : Nat) :
    (refill acc avail s).Proceeds p := by
  unfold refill
  split
  · exact (readReg32_proceeds hs .data).bind fun _ _ ht => ht
  · exact hs

theorem readBytes_proceeds (hs : ReadyWith p s) (sg : List SgEntry) (n : Nat) (acc : Word) (avail : Nat) :
    (readBytes sg n acc avail s).Proceeds p := by
  induction n generalizing acc avail s with
  | zero => exact hs
  | succ n ih =>
    refine (refill_proceeds hs acc avail).bind fun _ _ h1 =>
      (curAddr_proceeds h1 sg).bind fun _ _ h2 => ih ?_ _ _
    exact h2

theorem flushFull_proceeds (hs : ReadyWith p s) (acc : Word) : (flushFull acc s).Proceeds p := by
  unfold flushFull
  split
  · exact (writeReg32_proceeds hs .data acc).bind fun _ _ ht => ht
  · exact hs

theorem writeBytes_proceeds (hs : ReadyWith p s) (sg : List SgEntry) (n : Nat) (acc : Word) :
    (writeBytes sg n acc s).Proceeds p := by
  induction n generalizing acc s with
  | zero => exact hs
  | succ n ih =>
    refine (curAddr_proceeds hs sg).bind fun _ _ h1 =>
      (flushFull_proceeds ?_ _).bind fun _ _ h2 => ih h2 _
    exact h1

theorem readBlock_proceeds (hs : ReadyWith p s) (sg : List SgEntry) (n : Nat) :
    (readBlock sg n s).Proceeds p :=
  (readBytes_proceeds hs sg n 0 0).bind fun _ _ ht => ht

theorem writeBlock_proceeds (hs : ReadyWith p s) (sg : List SgEntry) (n : Nat) :
    (writeBlock sg n s).Proceeds p := by
  refine (writeBytes_proceeds (s := setAccOff 0 s) hs sg n 0).bind fun acc t ht => ?_
  refine Res.Proceeds.bind ?_ fun _ _ hu => hu
  split
  · exact writeReg32_proceeds ht .data acc
  · exact ht

theorem transferPio_proceeds (hs : ReadyWith p s) : (transferPio s).Proceeds p := by
  unfold transferPio
  split
  · exact hs
  · split
    · exact stuck_proceeds _
    · refine Res.Proceeds.bind ?_ fun _ _ ht => ht
      unfold moveBlock
      split
      · exact readBlock_proceeds hs _ _
      · exact writeBlock_proceeds hs _ _

/-! #### Prepare, issue, abort, finish (spec/41_command_engine.md, spec/42_data_session.md) -/

theorem triggerBlock_proceeds (hs : ReadyWith p s) (size : Half) (dir : Dir) :
    (triggerBlock size dir s).Proceeds p :=
  (writeReg16_proceeds hs .blksize size).bind fun _ _ ht => writeReg8_proceeds ht .dataCtrl _

theorem prepareData_proceeds (hs : ReadyWith p s) : (prepareData s).Proceeds p := by
  cases hd : dataOf s with
  | none =>
    simp only [prepareData, hd]
    exact hs
  | some d =>
    cases hf : prepareFault s.params d with
    | none =>
      rw [prepareData_triggers hd hf]
      exact triggerBlock_proceeds (s := phaseAttached d s) hs _ _
    | some f =>
      rw [prepareData_refused hd hf]
      exact raise_proceeds _ _

theorem launch_proceeds (hs : ReadyWith p s) (code : BitVec 3) : (launch code s).Proceeds p := by
  unfold launch
  split
  · exact raise_proceeds _ _
  · exact writeReg8_proceeds hs .cmdCtrl _

theorem sendCommand_proceeds (hs : ReadyWith p s) (c : Command) : (sendCommand c s).Proceeds p := by
  unfold sendCommand
  split
  · exact raise_proceeds _ _
  · exact (writeReg8_proceeds hs .cmd _).bind fun _ _ h1 =>
      (writeReg32_proceeds h1 .arg _).bind fun _ _ h2 => launch_proceeds h2 _

theorem issue_proceeds (hs : ReadyWith p s) (r : Role) : (issue r s).Proceeds p := by
  unfold issue
  split
  · exact stuck_proceeds _
  · rename_i c _
    have htaken : ReadyWith p (slotTaken r c s) := hs
    refine Res.Proceeds.bind ?_ fun _ _ ht => sendCommand_proceeds ht c
    split
    · exact prepareData_proceeds htaken
    · exact htaken

theorem pollAbort_proceeds (hs : ReadyWith p s) (flag : Byte) (n : Nat) :
    (pollAbort flag n s).Proceeds p := by
  induction n generalizing s with
  | zero => exact hs
  | succ n ih =>
    refine (readReg8_proceeds hs .abort).bind fun v t ht => ?_
    split
    · exact ht
    · exact ih ht

theorem abortSequence_proceeds (hs : ReadyWith p s) (k : AbortKind) : (abortSequence k s).Proceeds p :=
  (writeReg8_proceeds hs .abort _).bind fun _ _ ht => pollAbort_proceeds ht _ _

theorem abortBoth_proceeds (hs : ReadyWith p s) : (abortBoth s).Proceeds p :=
  (abortSequence_proceeds hs .cmd).bind fun _ _ ht => abortSequence_proceeds ht .data

theorem finishData_proceeds (hs : ReadyWith p s) (e : Err) : (finishData e s).Proceeds p := by
  have hclosed : ReadyWith p (dataClosed e s) := hs
  unfold finishData
  split
  · exact stuck_proceeds _
  · split
    · exact stuck_proceeds _
    · dsimp only
      split
      · refine Res.Proceeds.bind ?_ fun _ _ hu => issue_proceeds hu .stop
        split
        · exact hclosed
        · exact abortBoth_proceeds hclosed
      · exact hclosed

/-! #### The two interrupts -/

theorem captureResponse_proceeds (hs : ReadyWith p s) (r : Role) (c : Command) :
    (captureResponse r c s).Proceeds p := by
  simp only [captureResponse]
  split
  · exact stuck_proceeds _
  · exact hs
  · exact (readReg32_proceeds hs .resp0).bind fun _ _ h0 =>
      (readReg32_proceeds h0 .resp1).bind fun _ _ h1 =>
      (readReg32_proceeds h1 .resp2).bind fun _ _ h2 =>
      (readReg32_proceeds h2 .resp3).bind fun _ _ h3 => h3
  · exact (readReg32_proceeds hs .resp0).bind fun _ _ ht => ht

theorem afterCommand_proceeds (hs : ReadyWith p s) (r : Role) : (afterCommand r s).Proceeds p := by
  unfold afterCommand
  split
  · exact issue_proceeds hs .primary
  · split
    · exact hs
    · split
      · split
        · exact stuck_proceeds _
        · exact finishData_proceeds hs _
      · exact hs

theorem finishCommand_proceeds (hs : ReadyWith p s) : (finishCommand s).Proceeds p := by
  unfold finishCommand
  split
  · exact stuck_proceeds _
  · split
    · exact stuck_proceeds _
    · refine (captureResponse_proceeds hs _ _).bind fun _ _ ht => afterCommand_proceeds ?_ _
      exact ht

theorem ReadyWith.busyLogged (hs : ReadyWith p s) (c : Command) : ReadyWith p (busyLogged c s) := by
  unfold Machine.busyLogged
  split <;> exact hs

theorem onCommandInterrupt_proceeds (hs : ReadyWith p s) (mask : Word) :
    (onCommandInterrupt mask s).Proceeds p := by
  unfold onCommandInterrupt
  split
  · exact hs
  · split
    · exact stuck_proceeds _
    · rename_i c _
      dsimp only
      split
      · exact hs
      · split
        · exact finishCommand_proceeds (hs.busyLogged c)
        · exact hs.busyLogged c

theorem forceTimeout_proceeds (hs : ReadyWith p s) (r : Role) : (forceTimeout r s).Proceeds p := by
  unfold forceTimeout
  split
  · exact stuck_proceeds _
  · exact hs

theorem onDataNoPhase_proceeds (hs : ReadyWith p s) (mask : Word) :
    (onDataNoPhase mask s).Proceeds p := by
  have hlogged : ReadyWith p (logEvent .spuriousData s) := hs
  unfold onDataNoPhase
  split
  · exact finishCommand_proceeds hs
  · dsimp only
    split
    · exact hlogged
    · split
      · exact forceTimeout_proceeds hlogged _
      · exact hlogged

theorem onTransferComplete_proceeds (hs : ReadyWith p s) (d : Data) :
    (onTransferComplete d s).Proceeds p := by
  unfold onTransferComplete
  split
  · exact hs
  · split
    · exact triggerBlock_proceeds hs _ _
    · exact finishData_proceeds hs _

theorem onDataInterrupt_proceeds (hs : ReadyWith p s) (mask : Word) :
    (onDataInterrupt mask s).Proceeds p := by
  unfold onDataInterrupt
  split
  · exact onDataNoPhase_proceeds hs mask
  · split
    · exact stuck_proceeds _
    · dsimp only
      split
      · exact finishData_proceeds hs _
      · refine Res.Proceeds.bind ?_ fun _ t ht => ?_
        · split
          · exact transferPio_proceeds hs
          · exact hs
        · split
          · exact onTransferComplete_proceeds ht _
          · exact ht

/-! ### One category after another (R191, R195) -/

theorem thenStep_live {t : State} (h : t.fault = none) (k : State → Answer) :
    thenStep (.next t) k = k t := by
  simp [thenStep, h]

theorem thenStep_faulted {t : State} (h : t.fault.isSome = true) (k : State → Answer) :
    thenStep (.next t) k = .next t := by
  simp [thenStep, h]

/-- The answer of two operations in sequence is the second step's where the first raised no fault. -/
theorem Res.Proceeds.outcome_bind {x : Res Unit} {f : Unit → State → Res Unit} {k : State → Answer}
    (hx : x.Proceeds p) (hk : ∀ t, ReadyWith p t → (f () t).outcome = k t) :
    (x.bind f).outcome = thenStep x.outcome k := by
  cases x with
  | ok _ t =>
    rw [Res.bind_ok, Res.outcome_ok, hk t hx, thenStep_live (ready_iff.1 hx.1).1]
  | raised t =>
    rw [Res.bind_raised, Res.outcome_raised, thenStep_faulted hx]
  | stuck r => rfl

section
variable {bits : Word} {handler : State → Res Unit} (hs : ReadyWith p s)
include hs

theorem acknowledge_proceeds (hh : ∀ t, ReadyWith p t → (handler t).Proceeds p) :
    (acknowledge bits handler s).Proceeds p := by
  unfold acknowledge
  split
  · exact hs
  · exact (writeReg32_proceeds hs .intStatus bits).bind fun _ t ht => hh t ht

theorem outcome_acknowledge {k : State → Answer}
    (hk : ∀ t, ReadyWith p t → (handler t).outcome = k t) :
    (acknowledge bits handler s).outcome = ackThen bits k s := by
  by_cases hb : bits = 0
  · subst hb
    rw [acknowledge_zero]
    rfl
  · rw [acknowledge_bits hs.1 hb, ackThen, if_neg hb]
    exact hk (acknowledged bits s) hs

/-- R191: a category is its write and its handler's step; the next runs where no fault was raised. -/
theorem outcome_acknowledge_bind {f : Unit → State → Res Unit} {k k' : State → Answer}
    (hh : ∀ t, ReadyWith p t → (handler t).Proceeds p)
    (hk : ∀ t, ReadyWith p t → (handler t).outcome = k t)
    (hf : ∀ t, ReadyWith p t → (f () t).outcome = k' t) :
    ((acknowledge bits handler s).bind f).outcome = thenStep (ackThen bits k s) k' := by
  rw [(acknowledge_proceeds hs hh).outcome_bind hf, outcome_acknowledge hs hk]

end

theorem exec_dataIrq {s : State} (hf : s.fault = none) (mask : Word) :
    exec (.dataIrq mask) s = (onDataInterrupt mask s).outcome := by
  simp [exec, execDataIrq, whenLive_live hf]

theorem logEvent_if_overlaps (k : LogKind) (m bits : Word) (s : State) :
    (if overlaps m bits then logEvent k s else s) =
      { s with trace := s.trace ++ (if m &&& bits = 0 then [] else [.log k]) } := by
  by_cases h : m &&& bits = 0
  · rw [if_neg (by simp [overlaps, h]), if_pos h, List.append_nil]
  · rw [if_pos ((overlaps_iff _ _).2 h), if_neg h]
    rfl

/-- R196: the remaining bits are logged, the card interrupt's before the unclassified ones. -/
theorem outcome_logRemaining (m : Word) (s : State) : (logRemaining m s).outcome = .next { s with
    trace := s.trace
      ++ (if m &&& cardIntMask s.params = 0 then [] else [.log (.cardIntBits (m &&& cardIntMask s.params))])
      ++ (if m &&& ~~~classified s.params = 0 then []
        else [.log (.unclassifiedBits (m &&& ~~~classified s.params))]) } := by
  simp only [logRemaining, logEvent_if_overlaps, Res.outcome_done]

end

/-- Settles O41: the four categories are four acknowledgements in sequence, each handler a step. -/
theorem dispatchOrder : Obligations.DispatchOrder := by
  unfold Obligations.DispatchOrder
  intro s hs h0 hones p st card cmd data rest
  have hw : spuriousWord st = false :=
    Bool.or_eq_false_iff.2 ⟨beq_eq_false_iff_ne.2 h0, beq_eq_false_iff_ne.2 hones⟩
  have hp : paramsOk p = true := (ready_iff.1 hs).2.2
  have hread : ReadyWith p (statusRead s) := ⟨hs, rfl⟩
  rw [exec_irq hs, dispatch_eq hs hw, dispatchWord, dispatchFront, Res.bind_assoc]
  refine outcome_acknowledge_bind hread (fun t ht => ht) (fun t ht => rfl) fun s1 h1 => ?_
  have hcmd : cmdPart s1.params st = cmd := by rw [h1.2]; exact cmdPart_eq hp st
  rw [hcmd]
  refine outcome_acknowledge_bind h1 (fun t ht => onCommandInterrupt_proceeds ht cmd)
    (fun t ht => (exec_cmdIrq (ready_iff.1 ht.1).1 cmd).symm) fun s2 h2 => ?_
  have hdata : dataPart s2.params st = data := by rw [h2.2]; exact dataPart_eq hp st
  rw [dispatchBack, hdata]
  refine outcome_acknowledge_bind h2 (fun t ht => onDataInterrupt_proceeds ht data)
    (fun t ht => (exec_dataIrq (ready_iff.1 ht.1).1 data).symm) fun s3 h3 => ?_
  have hrest : restPart s3.params st = rest := by rw [h3.2]; exact restPart_eq p st
  rw [hrest]
  refine outcome_acknowledge h3 fun t ht => ?_
  rw [outcome_logRemaining, ht.2]

end Sys2Proof.Machine

/-! The abort sequence and the watchdog (spec/45_completion_watchdog.md R214 to R221): what n reads of ABORT
draw and record, how many of them the poll loop makes, one equation per case of a watchdog fire, and the
proofs of AbortSequence and WatchdogFire. -/

namespace Sys2Proof.Machine

/-! ### Draws in sequence (R121) -/

theorem draw_eq (s : State) : draw s = (drawAt s 0, afterDraws 1 s) := by
  cases h : s.answers <;> simp [draw, drawAt, afterDraws, h]

/-- The free draws taken by n draws and then k more (log 7), where len words were settled before. -/
theorem freeDraws_add (len n k : Nat) : n + k - len = n - len + (k - (len - n)) := by omega

theorem drawAt_afterDraws (n k : Nat) (s : State) : drawAt (afterDraws n s) k = drawAt s (n + k) := by
  simp [drawAt, afterDraws, freeDraws_add, Nat.add_assoc]

theorem afterDraws_afterDraws (n k : Nat) (s : State) :
    afterDraws k (afterDraws n s) = afterDraws (n + k) s := by
  simp [afterDraws, freeDraws_add, Nat.add_assoc]

/-! ### Reads of ABORT (R50, R115) -/

/-- What the read of ABORT shows that comes after j draws. -/
def abortPoll (s : State) (j : Nat) : Byte := (drawAt s j).setWidth 8

/-- The state after n reads of ABORT, the register then holding a (log 9). -/
def abortPolled (n : Nat) (a : Byte) (s : State) : State :=
  { afterDraws n s with
    win := { s.win with abort := a }
    trace := s.trace ++ (List.range n).map fun j => .r8 s.params.offAbort (abortPoll s j) }

theorem ready_abortPolled {s : State} (hs : ready s = true) (n : Nat) (a : Byte) :
    ready (abortPolled n a s) = true := hs

theorem readAbort_eq {s : State} (hs : ready s = true) :
    readReg8 .abort s = .ok (abortPoll s 0) (abortPolled 1 (abortPoll s 0) s) := by
  obtain ⟨-, ha, hp⟩ := ready_iff.1 hs
  rw [readReg8_ok hp ha .abort rfl rfl]
  simp only [show8, draw_eq]
  rfl

theorem abortPolled_zero (s : State) : abortPolled 0 s.win.abort s = s := by
  simp [abortPolled, afterDraws]

theorem abortPoll_abortPolled (n : Nat) (a : Byte) (s : State) (j : Nat) :
    abortPoll (abortPolled n a s) j = abortPoll s (n + j) :=
  congrArg _ (drawAt_afterDraws n j s)

/-- One more read after n. -/
theorem abortPolled_succ (n : Nat) (a b : Byte) (s : State) :
    abortPolled 1 b (abortPolled n a s) = abortPolled (n + 1) b s := by
  have hread : abortPoll (abortPolled n a s) 0 = abortPoll s n := abortPoll_abortPolled n a s 0
  rw [abortPolled, List.range_one, List.map_singleton, hread]
  simp [abortPolled, afterDraws, freeDraws_add, List.range_succ, Nat.add_assoc]

/-! ### The poll loop (R214) -/

section
variable {s : State} (hs : ready s = true) {flag : Byte}
include hs

theorem pollAbort_clear (h : abortPoll s 0 &&& flag = 0) (m : Nat) :
    pollAbort flag (m + 1) s = done (abortPolled 1 (abortPoll s 0) s) := by
  rw [pollAbort, readAbort_eq hs, Res.bind_ok, if_pos h]

theorem pollAbort_set (h : abortPoll s 0 &&& flag ≠ 0) (m : Nat) :
    pollAbort flag (m + 1) s = pollAbort flag m (abortPolled 1 (abortPoll s 0) s) := by
  rw [pollAbort, readAbort_eq hs, Res.bind_ok, if_neg h]

/-- Reads that show the flag set only use up the polls left. -/
theorem pollAbort_after_set {n : Nat} (h : ∀ j < n, abortPoll s j &&& flag ≠ 0) (m : Nat) :
    ∃ a, pollAbort flag (n + m) s = pollAbort flag m (abortPolled n a s) := by
  induction n generalizing m with
  | zero => exact ⟨s.win.abort, by rw [Nat.zero_add, abortPolled_zero]⟩
  | succ n ih =>
    obtain ⟨a, ha⟩ := ih (fun j hj => h j (Nat.lt_succ_of_lt hj)) (m + 1)
    have hset : abortPoll (abortPolled n a s) 0 &&& flag ≠ 0 := by
      rw [abortPoll_abortPolled]
      exact h n n.lt_succ_self
    exact ⟨_, by rw [Nat.add_assoc, Nat.add_comm 1, ha, pollAbort_set (ready_abortPolled hs n a) hset,
      abortPolled_succ]⟩

/-- R214: the loop ends at the first read that shows the flag clear. -/
theorem pollAbort_first_clear {n m : Nat} (hm : n < m) (h : ∀ j < n, abortPoll s j &&& flag ≠ 0)
    (hn : abortPoll s n &&& flag = 0) :
    ∃ a, pollAbort flag m s = done (abortPolled (n + 1) a s) := by
  obtain ⟨k, rfl⟩ := Nat.exists_eq_add_of_lt hm
  obtain ⟨a, ha⟩ := pollAbort_after_set hs h (k + 1)
  have hclear : abortPoll (abortPolled n a s) 0 &&& flag = 0 := by rwa [abortPoll_abortPolled]
  exact ⟨_, by rw [Nat.add_assoc, ha, pollAbort_clear (ready_abortPolled hs n a) hclear, abortPolled_succ]⟩

/-- R214: with no read showing it clear the loop makes every read and logs the timeout. -/
theorem pollAbort_timeout {n : Nat} (h : ∀ j < n, abortPoll s j &&& flag ≠ 0) :
    ∃ a, pollAbort flag n s = done (logEvent .abortTimeout (abortPolled n a s)) :=
  pollAbort_after_set hs h 0

end

/-! ### The abort sequence (R214 to R216) -/

/-- The state after a flag was written to ABORT. -/
def abortWritten (flag : Byte) (s : State) : State :=
  { record (.w8 s.params.offAbort flag) s with win := { s.win with abort := flag } }

/-- R214: the flag is written to ABORT, then polled for. -/
theorem exec_abortSeq_polls {s : State} (hs : ready s = true) (k : AbortKind) :
    exec (.abortSeq k) s =
      (pollAbort (abortFlag s.params k) 500 (abortWritten (abortFlag s.params k) s)).outcome := by
  obtain ⟨hf, ha, hp⟩ := ready_iff.1 hs
  rw [exec_abortSeq hf, abortSequence, writeReg8_ok hp ha .abort rfl rfl]
  rfl

theorem abortFlag_eq (p : Params) (k : AbortKind) :
    abortFlag p k = if k = .cmd then p.abortCmd else p.abortData := by
  cases k <;> rfl

/-- Settles O49: the polls after the flag's write end at the first that reads clear, or at the 500th. -/
theorem Completion.abortSequence : Obligations.AbortSequence := by
  unfold Obligations.AbortSequence
  intro s k hs p flag poll polled
  have hstart : ready (abortWritten flag s) = true := hs
  have hexec : exec (.abortSeq k) s = (pollAbort flag 500 (abortWritten flag s)).outcome := by
    rw [exec_abortSeq_polls hs, abortFlag_eq]
  refine ⟨fun n h1 h500 hset hclear => ?_, fun hset => ?_⟩
  · obtain ⟨n, rfl⟩ := Nat.exists_eq_add_of_le' h1
    obtain ⟨a, ha⟩ := pollAbort_first_clear hstart h500 hset hclear
    refine ⟨abortPolled (n + 1) a (abortWritten flag s), by rw [hexec, ha, Res.outcome_done], ?_⟩
    rw [List.append_nil]
    rfl
  · obtain ⟨a, ha⟩ := pollAbort_timeout hstart hset
    exact ⟨logEvent .abortTimeout (abortPolled 500 a (abortWritten flag s)),
      by rw [hexec, ha, Res.outcome_done], rfl⟩

/-! ### The watchdog (R218 to R222) -/

theorem exec_wdog {s : State} (hf : s.fault = none) (ht : s.timer.isSome = true) :
    exec .wdog s = (watchdogFire s).outcome := by
  simp [exec, execWdog, whenEnabled, whenLive_live hf, ht]

/-- R221: the named Command takes Timeout and the request-finish work is scheduled. -/
theorem forceTimeout_command {s : State} {r : Role} {c : Command} (h : cmdOf s r = some c) :
    forceTimeout r s = done (scheduleWork .finish (updCmd r (fun x => { x with error := .timeout }) s)) := by
  simp [forceTimeout, h]

theorem watchdogFire_idle {s : State} (h : s.req = none) :
    watchdogFire s = done { s with timer := none } := by
  simp [watchdogFire, h]

section
variable {s : State} {q : Request} (hq : s.req = some q)
include hq

theorem watchdogFire_data (h : s.curData = true) :
    watchdogFire s = finishData .timeout { s with timer := none } := by
  simp [watchdogFire, hq, h]

theorem watchdogFire_noData (h : s.curData = false) :
    watchdogFire s = forceTimeout (s.curCmd.getD .primary) { s with timer := none } := by
  simp [watchdogFire, hq, h]

end

/-- Settles O50: one equation of the fire per case; without a Data phase it forces a command's Timeout. -/
theorem Completion.watchdogFire : Obligations.WatchdogFire := by
  unfold Obligations.WatchdogFire
  intro s hf ht off
  rw [exec_wdog hf ht]
  refine ⟨fun hq => ?_, fun hq hcur => ?_, fun q r c hq hcur hr hc => ?_⟩
  · rw [watchdogFire_idle hq, Res.outcome_done]
  · obtain ⟨q, hq⟩ := Option.ne_none_iff_exists'.1 hq
    rw [watchdogFire_data hq hcur, exec_finishData (s := off) hf]
  · have hrole : s.curCmd.getD .primary = r := by
      rw [hr]
      cases s.curCmd <;> rfl
    have hcmd : cmdOf off r = some c := by simp [cmdOf, off, hq, hc]
    rw [watchdogFire_noData hq hcur, hrole, forceTimeout_command hcmd]
    simp [scheduleWork, updCmd, off, hq]

end Sys2Proof.Machine

/-! The issuer, the notifier and the environment (spec/46_issuer_platform.md R230 to R241): no step but SUBMIT
makes a Request active, none writes a field the issuer supplied, and the proofs of IssuerFieldsKept, Notify
and EnvRaise. -/

namespace Sys2Proof.Machine

/-! ### The issuer's part of a Request under the engine's updates (R11, R237) -/

theorem issuerPart_eq_of_sameCommand {c d : Command} (h : sameCommand c d) :
    Command.issuerPart d = Command.issuerPart c := by
  obtain ⟨hop, harg, hshape, htime, hrole⟩ := h
  simp [Command.issuerPart, hop, harg, hshape, htime, hrole]

theorem issuerPart_mapCommand (q : Request) (r : Role) {f : Command → Command}
    (hf : ∀ c, sameCommand c (f c)) :
    Request.issuerPart (Request.mapCommand q r f) = Request.issuerPart q := by
  have hpart : ∀ c, Command.issuerPart (f c) = Command.issuerPart c :=
    fun c => issuerPart_eq_of_sameCommand (hf c)
  cases r <;> simp [Request.mapCommand, Request.issuerPart, Function.comp_def, hpart]

theorem issuerPart_mapData (q : Request) {f : Data → Data} (hf : ∀ d, sameData d (f d)) :
    Request.issuerPart (Request.mapData q f) = Request.issuerPart q := by
  simp only [sameData] at hf
  simp [Request.mapData, Request.issuerPart, Function.comp_def, hf]

/-- A Request active in t was active in s, with the same fields of its issuer. -/
def IssuerKept (s t : State) : Prop :=
  ∀ q', t.req = some q' → ∃ q, s.req = some q ∧ Request.issuerPart q' = Request.issuerPart q

theorem IssuerKept.of_req_eq {s t : State} (h : t.req = s.req) : IssuerKept s t :=
  fun q' hq => ⟨q', h.symm.trans hq, rfl⟩

theorem IssuerKept.refl (s : State) : IssuerKept s s := .of_req_eq rfl

theorem IssuerKept.of_req_none {s t : State} (h : t.req = none) : IssuerKept s t :=
  fun _ hq => nomatch h.symm.trans hq

theorem IssuerKept.trans {s t u : State} (h : IssuerKept s t) (h' : IssuerKept t u) :
    IssuerKept s u := fun q'' hu => by
  obtain ⟨q', ht, hpart'⟩ := h' q'' hu
  obtain ⟨q, hs, hpart⟩ := h q' ht
  exact ⟨q, hs, hpart'.trans hpart⟩

theorem IssuerKept.of_req_map {s t : State} {g : Request → Request} (h : t.req = s.req.map g)
    (hg : ∀ q, Request.issuerPart (g q) = Request.issuerPart q) : IssuerKept s t := fun q' hq => by
  obtain ⟨q, hs, rfl⟩ := Option.map_eq_some_iff.1 (h.symm.trans hq)
  exact ⟨q, hs, hg q⟩

theorem issuerKept_updCmd (r : Role) {f : Command → Command} (s : State)
    (hf : ∀ c, sameCommand c (f c)) : IssuerKept s (updCmd r f s) :=
  .of_req_map rfl fun q => issuerPart_mapCommand q r hf

theorem issuerKept_updData {f : Data → Data} (s : State) (hf : ∀ d, sameData d (f d)) :
    IssuerKept s (updData f s) :=
  .of_req_map rfl fun q => issuerPart_mapData q hf

theorem issuerKept_error (r : Role) (e : Err) (s : State) :
    IssuerKept s (updCmd r (fun c => { c with error := e }) s) :=
  issuerKept_updCmd r s fun _ => ⟨rfl, rfl, rfl, rfl, rfl⟩

theorem issuerKept_resp (r : Role) (g : Command → Resp) (s : State) :
    IssuerKept s (updCmd r (fun c => { c with resp := g c }) s) :=
  issuerKept_updCmd r s fun _ => ⟨rfl, rfl, rfl, rfl, rfl⟩

theorem issuerKept_scheduleWork (w : WorkUnit) (s : State) : IssuerKept s (scheduleWork w s) := by
  cases w <;> exact .refl s

/-! ### Rules that keep the issuer's part (R237)

Unlike `Kept`, for every value of the parameters: whichever register an access reaches, it is none of the
Request's fields. -/

/-- The operation, run from s, ends with the issuer's part kept, whether it goes on or raised a fault. -/
def Res.KeepsIssuer {α : Type} (x : Res α) (s : State) : Prop :=
  x.Ends (fun _ t => IssuerKept s t) (IssuerKept s)

theorem Res.KeepsIssuer.after {α : Type} {x : Res α} {s t : State} (hx : x.KeepsIssuer t)
    (h : IssuerKept s t) : x.KeepsIssuer s :=
  Res.Ends.mono hx (fun _ _ hu => h.trans hu) fun _ hu => h.trans hu

theorem Res.KeepsIssuer.bind {α β : Type} {x : Res α} {f : α → State → Res β} {s : State}
    (hx : x.KeepsIssuer s) (hf : ∀ a t, (f a t).KeepsIssuer t) : (x.bind f).KeepsIssuer s :=
  Res.Ends.bind hx fun a t ht => (hf a t).after ht

theorem done_keepsIssuer (s : State) : (done s).KeepsIssuer s := IssuerKept.refl s

theorem raise_keepsIssuer {α : Type} (c : FaultReason) (s : State) :
    (raise c s : Res α).KeepsIssuer s := IssuerKept.refl s

theorem stuck_keepsIssuer {α : Type} (r : Refusal) (s : State) :
    (Res.stuck r : Res α).KeepsIssuer s := trivial

/-! #### The register window -/

theorem read8_keepsIssuer (off : Nat) (s : State) : (read8 off s).KeepsIssuer s := by
  obtain h | ⟨r, -, h⟩ := read8_cases off s <;> rw [h]
  · exact raise_keepsIssuer _ s
  · exact IssuerKept.of_req_eq (show8_req s r)

theorem read32_keepsIssuer (off : Nat) (s : State) : (read32 off s).KeepsIssuer s := by
  obtain h | ⟨r, -, h⟩ := read32_cases off s <;> rw [h]
  · exact raise_keepsIssuer _ s
  · exact IssuerKept.of_req_eq (show32_req s r)

theorem write8_keepsIssuer (off : Nat) (v : Byte) (s : State) : (write8 off v s).KeepsIssuer s := by
  obtain h | ⟨r, h⟩ := write8_cases off v s <;> rw [h]
  · exact raise_keepsIssuer _ s
  · exact IssuerKept.refl s

theorem write32_keepsIssuer (off : Nat) (v : Word) (s : State) : (write32 off v s).KeepsIssuer s := by
  obtain h | ⟨r, h⟩ := write32_cases off v s <;> rw [h]
  · exact raise_keepsIssuer _ s
  · exact IssuerKept.refl s

theorem write16_keepsIssuer (off : Nat) (v : Half) (s : State) : (write16 off v s).KeepsIssuer s := by
  obtain h | h := write16_cases off v s <;> rw [h]
  · exact raise_keepsIssuer _ s
  · exact IssuerKept.refl s

theorem readReg8_keepsIssuer (r : Reg) (s : State) : (readReg8 r s).KeepsIssuer s :=
  read8_keepsIssuer _ s

theorem readReg32_keepsIssuer (r : Reg) (s : State) : (readReg32 r s).KeepsIssuer s :=
  read32_keepsIssuer _ s

theorem writeReg8_keepsIssuer (r : Reg) (v : Byte) (s : State) : (writeReg8 r v s).KeepsIssuer s :=
  write8_keepsIssuer _ v s

theorem writeReg32_keepsIssuer (r : Reg) (v : Word) (s : State) : (writeReg32 r v s).KeepsIssuer s :=
  write32_keepsIssuer _ v s

theorem writeReg16_keepsIssuer (r : Reg) (v : Half) (s : State) : (writeReg16 r v s).KeepsIssuer s :=
  write16_keepsIssuer _ v s

/-! #### The transfer port (spec/43_transfer_port.md) -/

theorem curAddr_keepsIssuer (sg : List SgEntry) (s : State) : (curAddr sg s).KeepsIssuer s := by
  simp only [curAddr]
  split <;> exact IssuerKept.refl s

theorem refill_keepsIssuer (acc : Word) (avail : Nat) (s : State) :
    (refill acc avail s).KeepsIssuer s := by
  unfold refill
  split
  · exact (readReg32_keepsIssuer .data s).bind fun _ t => IssuerKept.refl t
  · exact IssuerKept.refl s

theorem readBytes_keepsIssuer (sg : List SgEntry) (n : Nat) (acc : Word) (avail : Nat) (s : State) :
    (readBytes sg n acc avail s).KeepsIssuer s := by
  induction n generalizing acc avail s with
  | zero => exact done_keepsIssuer s
  | succ n ih =>
    exact (refill_keepsIssuer acc avail s).bind fun _ t =>
      (curAddr_keepsIssuer sg t).bind fun _ u => (ih _ _ _).after (IssuerKept.refl u)

theorem readBlock_keepsIssuer (sg : List SgEntry) (n : Nat) (s : State) :
    (readBlock sg n s).KeepsIssuer s :=
  (readBytes_keepsIssuer sg n 0 0 s).bind fun _ t => IssuerKept.refl t

theorem flushFull_keepsIssuer (acc : Word) (s : State) : (flushFull acc s).KeepsIssuer s := by
  unfold flushFull
  split
  · exact (writeReg32_keepsIssuer .data acc s).bind fun _ t => IssuerKept.refl t
  · exact IssuerKept.refl s

theorem writeBytes_keepsIssuer (sg : List SgEntry) (n : Nat) (acc : Word) (s : State) :
    (writeBytes sg n acc s).KeepsIssuer s := by
  induction n generalizing acc s with
  | zero => exact IssuerKept.refl s
  | succ n ih =>
    simp only [writeBytes]
    refine (curAddr_keepsIssuer sg s).bind fun a t => Res.KeepsIssuer.bind ?_ fun _ u => ih _ u
    exact (flushFull_keepsIssuer _ _).after (IssuerKept.refl t)

theorem writeBlock_keepsIssuer (sg : List SgEntry) (n : Nat) (s : State) :
    (writeBlock sg n s).KeepsIssuer s := by
  have hstart : IssuerKept s (setAccOff 0 s) := .refl s
  refine ((writeBytes_keepsIssuer sg n 0 _).after hstart).bind fun acc t => ?_
  refine Res.KeepsIssuer.bind ?_ fun _ u => IssuerKept.refl u
  split
  · exact writeReg32_keepsIssuer .data acc t
  · exact done_keepsIssuer t

theorem moveBlock_keepsIssuer (d : Data) (s : State) : (moveBlock d s).KeepsIssuer s := by
  unfold moveBlock
  split
  · exact readBlock_keepsIssuer _ _ s
  · exact writeBlock_keepsIssuer _ _ s

theorem transferPio_keepsIssuer (s : State) : (transferPio s).KeepsIssuer s := by
  unfold transferPio
  split
  · exact done_keepsIssuer s
  · split
    · exact stuck_keepsIssuer _ s
    · exact (moveBlock_keepsIssuer _ s).bind fun _ t => IssuerKept.refl t

/-! #### Prepare, issue, abort, finish (spec/41_command_engine.md, spec/42_data_session.md) -/

theorem triggerBlock_keepsIssuer (size : Half) (dir : Dir) (s : State) :
    (triggerBlock size dir s).KeepsIssuer s :=
  (writeReg16_keepsIssuer .blksize size s).bind fun _ t => writeReg8_keepsIssuer .dataCtrl _ t

theorem issuerKept_phaseAttached (d : Data) (s : State) : IssuerKept s (phaseAttached d s) :=
  issuerKept_updData s fun _ => ⟨rfl, rfl, rfl, rfl, rfl⟩

theorem prepareData_keepsIssuer (s : State) : (prepareData s).KeepsIssuer s := by
  cases hd : dataOf s with
  | none =>
    simp only [prepareData, hd]
    exact done_keepsIssuer s
  | some d =>
    cases hf : prepareFault s.params d with
    | none =>
      rw [prepareData_triggers hd hf]
      exact (triggerBlock_keepsIssuer _ _ _).after (issuerKept_phaseAttached d s)
    | some f =>
      rw [prepareData_refused hd hf]
      exact raise_keepsIssuer _ s

theorem launch_keepsIssuer (code : BitVec 3) (s : State) : (launch code s).KeepsIssuer s := by
  unfold launch
  split
  · exact raise_keepsIssuer _ s
  · exact writeReg8_keepsIssuer .cmdCtrl _ s

theorem sendCommand_keepsIssuer (c : Command) (s : State) : (sendCommand c s).KeepsIssuer s := by
  unfold sendCommand
  split
  · exact raise_keepsIssuer _ s
  · exact (writeReg8_keepsIssuer .cmd _ s).bind fun _ t =>
      (writeReg32_keepsIssuer .arg _ t).bind fun _ u => launch_keepsIssuer _ u

theorem issue_keepsIssuer (r : Role) (s : State) : (issue r s).KeepsIssuer s := by
  unfold issue
  split
  · exact stuck_keepsIssuer _ s
  · rename_i c _
    have htaken : IssuerKept s (slotTaken r c s) := .refl s
    refine Res.KeepsIssuer.bind ?_ fun _ t => sendCommand_keepsIssuer c t
    split
    · exact (prepareData_keepsIssuer _).after htaken
    · exact htaken

theorem pollAbort_keepsIssuer (flag : Byte) (n : Nat) (s : State) :
    (pollAbort flag n s).KeepsIssuer s := by
  induction n generalizing s with
  | zero => exact IssuerKept.refl s
  | succ n ih =>
    refine (readReg8_keepsIssuer .abort s).bind fun v t => ?_
    split
    · exact done_keepsIssuer t
    · exact ih t

theorem abortSequence_keepsIssuer (k : AbortKind) (s : State) : (abortSequence k s).KeepsIssuer s :=
  (writeReg8_keepsIssuer .abort _ s).bind fun _ t => pollAbort_keepsIssuer _ _ t

theorem abortBoth_keepsIssuer (s : State) : (abortBoth s).KeepsIssuer s :=
  (abortSequence_keepsIssuer .cmd s).bind fun _ t => abortSequence_keepsIssuer .data t

theorem issuerKept_dataClosed (e : Err) (s : State) : IssuerKept s (dataClosed e s) :=
  issuerKept_updData { s with curData := false, dataEarly := false } fun _ => ⟨rfl, rfl, rfl, rfl, rfl⟩

theorem finishData_keepsIssuer (e : Err) (s : State) : (finishData e s).KeepsIssuer s := by
  have hclosed := issuerKept_dataClosed e s
  unfold finishData
  split
  · exact stuck_keepsIssuer _ s
  · split
    · exact stuck_keepsIssuer _ s
    · dsimp only
      split
      · refine Res.KeepsIssuer.bind ?_ fun _ t => issue_keepsIssuer .stop t
        split
        · exact hclosed
        · exact (abortBoth_keepsIssuer _).after hclosed
      · exact hclosed

/-! #### The two interrupts -/

theorem captureResponse_keepsIssuer (r : Role) (c : Command) (s : State) :
    (captureResponse r c s).KeepsIssuer s := by
  simp only [captureResponse]
  split
  · exact stuck_keepsIssuer _ s
  · exact done_keepsIssuer s
  · exact (readReg32_keepsIssuer .resp0 s).bind fun _ s0 =>
      (readReg32_keepsIssuer .resp1 s0).bind fun _ s1 =>
      (readReg32_keepsIssuer .resp2 s1).bind fun _ s2 =>
      (readReg32_keepsIssuer .resp3 s2).bind fun _ s3 => issuerKept_resp r _ s3
  · exact (readReg32_keepsIssuer .resp0 s).bind fun _ t => issuerKept_resp r _ t

theorem afterCommand_keepsIssuer (r : Role) (s : State) : (afterCommand r s).KeepsIssuer s := by
  unfold afterCommand
  split
  · exact issue_keepsIssuer .primary s
  · split
    · exact IssuerKept.refl s
    · split
      · split
        · exact stuck_keepsIssuer _ s
        · exact finishData_keepsIssuer _ s
      · exact done_keepsIssuer s

theorem finishCommand_keepsIssuer (s : State) : (finishCommand s).KeepsIssuer s := by
  unfold finishCommand
  split
  · exact stuck_keepsIssuer _ s
  · split
    · exact stuck_keepsIssuer _ s
    · exact (captureResponse_keepsIssuer _ _ s).bind fun _ t =>
        (afterCommand_keepsIssuer _ _).after (issuerKept_error _ .ok t)

theorem issuerKept_busyLogged (c : Command) (s : State) : IssuerKept s (busyLogged c s) := by
  unfold busyLogged
  split <;> exact .refl s

theorem onCommandInterrupt_keepsIssuer (mask : Word) (s : State) :
    (onCommandInterrupt mask s).KeepsIssuer s := by
  unfold onCommandInterrupt
  split
  · exact IssuerKept.refl s
  · split
    · exact stuck_keepsIssuer _ s
    · rename_i c _
      dsimp only
      split
      · exact issuerKept_error _ _ s
      · split
        · exact (finishCommand_keepsIssuer _).after (issuerKept_busyLogged c s)
        · exact issuerKept_busyLogged c s

theorem forceTimeout_keepsIssuer (r : Role) (s : State) : (forceTimeout r s).KeepsIssuer s := by
  unfold forceTimeout
  split
  · exact stuck_keepsIssuer _ s
  · exact issuerKept_error r .timeout s

theorem onDataNoPhase_keepsIssuer (mask : Word) (s : State) : (onDataNoPhase mask s).KeepsIssuer s := by
  have hlogged : IssuerKept s (logEvent .spuriousData s) := .refl s
  unfold onDataNoPhase
  split
  · exact finishCommand_keepsIssuer s
  · dsimp only
    split
    · exact hlogged
    · split
      · exact (forceTimeout_keepsIssuer _ _).after hlogged
      · exact hlogged

theorem onTransferComplete_keepsIssuer (d : Data) (s : State) :
    (onTransferComplete d s).KeepsIssuer s := by
  unfold onTransferComplete
  split
  · exact IssuerKept.refl s
  · split
    · exact triggerBlock_keepsIssuer _ _ s
    · exact finishData_keepsIssuer .ok s

theorem onDataInterrupt_keepsIssuer (mask : Word) (s : State) :
    (onDataInterrupt mask s).KeepsIssuer s := by
  unfold onDataInterrupt
  split
  · exact onDataNoPhase_keepsIssuer mask s
  · split
    · exact stuck_keepsIssuer _ s
    · dsimp only
      split
      · exact finishData_keepsIssuer _ s
      · refine Res.KeepsIssuer.bind ?_ fun _ t => ?_
        · split
          · exact transferPio_keepsIssuer s
          · exact done_keepsIssuer s
        · split
          · exact onTransferComplete_keepsIssuer _ t
          · exact done_keepsIssuer t

/-! #### The dispatcher (spec/44_dispatcher.md) -/

theorem acknowledge_keepsIssuer (bits : Word) {handler : State → Res Unit}
    (hh : ∀ t, (handler t).KeepsIssuer t) (s : State) : (acknowledge bits handler s).KeepsIssuer s := by
  unfold acknowledge
  split
  · exact done_keepsIssuer s
  · exact (writeReg32_keepsIssuer .intStatus bits s).bind fun _ t => hh t

theorem logRemaining_keepsIssuer (m : Word) (s : State) : (logRemaining m s).KeepsIssuer s := by
  simp only [logRemaining, logEvent_if_overlaps]
  exact IssuerKept.refl s

theorem scheduleWork_keepsIssuer (w : WorkUnit) (s : State) : (done (scheduleWork w s)).KeepsIssuer s :=
  issuerKept_scheduleWork w s

theorem dispatchWord_keepsIssuer (st : Word) (s : State) : (dispatchWord st s).KeepsIssuer s := by
  have hfront : (dispatchFront st s).KeepsIssuer s :=
    (acknowledge_keepsIssuer _ (scheduleWork_keepsIssuer .card) s).bind fun _ t =>
      acknowledge_keepsIssuer _ (onCommandInterrupt_keepsIssuer _) t
  have hback : ∀ t, (dispatchBack st t).KeepsIssuer t := fun t =>
    (acknowledge_keepsIssuer _ (onDataInterrupt_keepsIssuer _) t).bind fun _ u =>
      acknowledge_keepsIssuer _ (logRemaining_keepsIssuer _) u
  exact hfront.bind fun _ t => hback t

theorem dispatch_keepsIssuer (s : State) : (dispatch s).KeepsIssuer s := by
  refine (readReg32_keepsIssuer .intStatus s).bind fun st t => ?_
  split
  · exact done_keepsIssuer t
  · exact dispatchWord_keepsIssuer st t

/-! #### Completion, watchdog, platform (spec/45_completion_watchdog.md, spec/46_issuer_platform.md) -/

theorem requestFinish_keepsIssuer (s : State) : (requestFinish s).KeepsIssuer s := by
  simp only [requestFinish]
  split
  · exact IssuerKept.refl s
  · refine Res.KeepsIssuer.bind ?_ fun _ t => IssuerKept.of_req_none (detachRequest_req t _)
    have hcancelled : IssuerKept s (cancelTimer { s with finishPend := false }) := .refl s
    split
    · exact (abortBoth_keepsIssuer _).after hcancelled
    · exact hcancelled

theorem watchdogFire_keepsIssuer (s : State) : (watchdogFire s).KeepsIssuer s := by
  have hfired : IssuerKept s { s with timer := none } := .refl s
  simp only [watchdogFire]
  split
  · exact hfired
  · split
    · exact (finishData_keepsIssuer .timeout _).after hfired
    · exact (forceTimeout_keepsIssuer _ _).after hfired

theorem deliver_keepsIssuer (s : State) : (deliver s).KeepsIssuer s := by
  unfold deliver
  split <;> exact IssuerKept.refl s

theorem attachWindow_keepsIssuer (s : State) : (attachWindow s).KeepsIssuer s :=
  have hreset : IssuerKept s { resetEngine s with attached := true } := .of_req_none rfl
  (writeReg32_keepsIssuer .intEnable _ _).after hreset

theorem detachWindow_keepsIssuer (s : State) : (detachWindow s).KeepsIssuer s :=
  (writeReg32_keepsIssuer .intEnable 0 s).bind fun _ t => IssuerKept.refl t

theorem setPowerMode_keepsIssuer (mode : PowerMode) (s : State) : (setPowerMode mode s).KeepsIssuer s :=
  have hmode : IssuerKept s { s with power := mode } := .refl s
  (writeReg8_keepsIssuer .power _ _).after hmode

theorem takeSlot_keepsIssuer (r : Role) (s : State) : (takeSlot r s).KeepsIssuer s := by
  unfold takeSlot
  split
  · exact stuck_keepsIssuer _ s
  · exact IssuerKept.refl s

/-! ### SUBMIT (R230) -/

theorem startRequest_keepsIssuer (r : Request) (s : State) :
    (startRequest r s).KeepsIssuer { s with req := some (Request.withRoles r) } := by
  have haccepted : IssuerKept { s with req := some (Request.withRoles r) }
      { s with
        req := some (Request.withRoles r)
        dutyBroken := !Request.dutiesKept (Request.withRoles r) } := .refl _
  refine ((readReg32_keepsIssuer .present _).after haccepted).bind fun p t => ?_
  split
  · exact issuerKept_error .primary .noMedium t
  · split
    · exact issue_keepsIssuer .sbc t
    · exact issue_keepsIssuer .primary t

/-- SUBMIT raises with the active Request kept, or starts its Request where none was active. -/
theorem submitRequest_cases (r : Request) (s : State) :
    (submitRequest r s).KeepsIssuer s ∨ s.req = none ∧ submitRequest r s = startRequest r s := by
  unfold submitRequest
  split
  · exact .inl (raise_keepsIssuer _ s)
  · split
    · exact .inl (raise_keepsIssuer _ s)
    · rename_i hreq
      split
      · exact .inl (raise_keepsIssuer _ s)
      · exact .inr ⟨by simpa using hreq, rfl⟩

theorem exec_submit_next {r : Request} {s t : State} (h : exec (.submit r) s = .next t) :
    IssuerKept s t ∨ s.req = none ∧ IssuerKept { s with req := some (Request.withRoles r) } t := by
  obtain ⟨-, hnext⟩ := whenLive_next (k := fun u => (submitRequest r u).outcome) h
  obtain hkept | ⟨hidle, hstart⟩ := submitRequest_cases r s
  · exact .inl (hkept.next hnext)
  · rw [hstart] at hnext
    exact .inr ⟨hidle, (startRequest_keepsIssuer r s).next hnext⟩

/-! ### Every other step -/

section
variable {s t : State} {f : State → Res Unit}

theorem issuerKept_of_whenLive (h : whenLive s (fun u => (f u).outcome) = .next t)
    (hf : ∀ u, (f u).KeepsIssuer u) : IssuerKept s t := by
  obtain ⟨-, hnext⟩ := whenLive_next h
  exact (hf s).next hnext

theorem issuerKept_of_update (g : State → State) (hg : ∀ u, IssuerKept u (g u))
    (h : whenLive s (fun u => (done (g u)).outcome) = .next t) : IssuerKept s t :=
  issuerKept_of_whenLive h hg

theorem issuerKept_of_whenEnabled {m : String} {b : Bool}
    (h : whenEnabled m b s (fun u => (f u).outcome) = .next t)
    (hf : ∀ u, (f u).KeepsIssuer u) : IssuerKept s t := by
  obtain ⟨-, -, hnext⟩ := whenEnabled_next h
  exact (hf s).next hnext

end

theorem issuerKept_of_raiseIrq {m : String} {w : Word} {s t : State}
    (h : raiseIrq m w s = .next t) : IssuerKept s t :=
  issuerKept_of_whenEnabled h fun u => (dispatch_keepsIssuer _).after (.of_req_eq (envRaise_req u w))

theorem fault_none_of_exec_next {i : Instr} {s t : State} (h : exec i s = .next t) : s.fault = none := by
  by_contra hf
  exact exec_ne_next_of_fault (Option.isSome_iff_ne_none.2 hf) i t h

theorem exec_pioReadBlock_next {s t : State} (h : exec .pioReadBlock s = .next t) :
    ∃ d : Data, (readBlock d.sg d.blksz s).outcome = .next t := by
  have hf := fault_none_of_exec_next h
  cases hd : dataOf s with
  | none => simp [exec, execPioReadBlock, whenLive_live hf, hd] at h
  | some d => exact ⟨d, (exec_pioReadBlock hf hd).symm.trans h⟩

theorem exec_pioWriteBlock_next {s t : State} (h : exec .pioWriteBlock s = .next t) :
    ∃ d : Data, (writeBlock d.sg d.blksz s).outcome = .next t := by
  have hf := fault_none_of_exec_next h
  cases hd : dataOf s with
  | none => simp [exec, execPioWriteBlock, whenLive_live hf, hd] at h
  | some d => exact ⟨d, (exec_pioWriteBlock hf hd).symm.trans h⟩

theorem exec_opInvalid_ne_next (code : Byte) (s t : State) : exec (.opInvalid code) s ≠ .next t := by
  intro h
  simp [exec, execOpInvalid, whenLive_live (fault_none_of_exec_next h)] at h

/-- R237: every step but SUBMIT keeps what the issuer supplied. -/
theorem exec_keepsIssuer {i : Instr} (hi : ∀ r, i ≠ .submit r) {s t : State}
    (h : exec i s = .next t) : IssuerKept s t := by
  cases i with
  | submit r => exact absurd rfl (hi r)
  | attach => exact issuerKept_of_whenEnabled h attachWindow_keepsIssuer
  | detach => exact issuerKept_of_whenEnabled h detachWindow_keepsIssuer
  | irq | spuriousZero => exact issuerKept_of_whenEnabled h dispatch_keepsIssuer
  | wdog => exact issuerKept_of_whenEnabled h watchdogFire_keepsIssuer
  | workFinish => exact issuerKept_of_whenEnabled h requestFinish_keepsIssuer
  | workCard =>
    exact issuerKept_of_whenEnabled (f := fun u => done (record .notifyPresence { u with cardPend := false }))
      h IssuerKept.refl
  | notify => exact issuerKept_of_whenEnabled h deliver_keepsIssuer
  | setPower | powerOff | powerUp | powerOn =>
    exact issuerKept_of_whenEnabled h (setPowerMode_keepsIssuer _)
  | stCmdComplete | stXferComplete | stSpaceAvail | stDataAvail | stCardInsert | stCardRemove | stCardInt
  | stCmdTimeout | stCmdCrc | stCmdEndBit | stCmdIndex | stDataTimeout | stDataCrc | stDataEndBit
  | stUnclassified | spuriousAllOnes => exact issuerKept_of_raiseIrq h
  | envRaise m => exact issuerKept_of_update (envRaise m) IssuerKept.refl h
  | envCard b => exact issuerKept_of_update (envCard b) IssuerKept.refl h
  | arm n => exact issuerKept_of_update (armTimer n) IssuerKept.refl h
  | cancel => exact issuerKept_of_update cancelTimer IssuerKept.refl h
  | log k => exact issuerKept_of_update (logEvent k) IssuerKept.refl h
  | schedule w => exact issuerKept_of_update (scheduleWork w) (issuerKept_scheduleWork w) h
  | issue r => exact issuerKept_of_whenLive h (issue_keepsIssuer r)
  | cmdIrq mask => exact issuerKept_of_whenLive h (onCommandInterrupt_keepsIssuer mask)
  | finishCmd => exact issuerKept_of_whenLive h finishCommand_keepsIssuer
  | prepare => exact issuerKept_of_whenLive h prepareData_keepsIssuer
  | triggerBlock size dir => exact issuerKept_of_whenLive h (triggerBlock_keepsIssuer size dir)
  | dataIrq mask => exact issuerKept_of_whenLive h (onDataInterrupt_keepsIssuer mask)
  | pio => exact issuerKept_of_whenLive h transferPio_keepsIssuer
  | pioReadBlock =>
    obtain ⟨d, hnext⟩ := exec_pioReadBlock_next h
    exact (readBlock_keepsIssuer d.sg d.blksz s).next hnext
  | pioWriteBlock =>
    obtain ⟨d, hnext⟩ := exec_pioWriteBlock_next h
    exact (writeBlock_keepsIssuer d.sg d.blksz s).next hnext
  | finishData e => exact issuerKept_of_whenLive h (finishData_keepsIssuer e)
  | abortSeq | abortCmd | abortData => exact issuerKept_of_whenLive h (abortSequence_keepsIssuer _)
  | read8 off =>
    exact issuerKept_of_whenLive (f := fun u => (read8 off.toNat u).bind fun _ v => done v) h
      fun u => (read8_keepsIssuer _ u).bind fun _ v => done_keepsIssuer v
  | read32 off =>
    exact issuerKept_of_whenLive (f := fun u => (read32 off.toNat u).bind fun _ v => done v) h
      fun u => (read32_keepsIssuer _ u).bind fun _ v => done_keepsIssuer v
  | write8 off v => exact issuerKept_of_whenLive h (write8_keepsIssuer _ v)
  | write32 off v => exact issuerKept_of_whenLive h (write32_keepsIssuer _ v)
  | write16 off v => exact issuerKept_of_whenLive h (write16_keepsIssuer _ v)
  | argword => exact issuerKept_of_whenLive h fun u => writeReg32_keepsIssuer _ _ u
  | blksz16 => exact issuerKept_of_whenLive h fun u => writeReg16_keepsIssuer _ _ u
  | cmdbyte | rspctlNone | rspctlShort | rspctlShortbusy | rspctlLong | rspctlR3 | datactlRead
  | datactlWrite | dirRead | dirWrite =>
    exact issuerKept_of_whenLive h fun u => writeReg8_keepsIssuer _ _ u
  | shapeNone | shapeShort | shapeShortbusy | shapeLong | shapeR3 | shapeInvalid =>
    exact issuerKept_of_whenLive h (launch_keepsIssuer _)
  | roleSbc | rolePrimary | roleStop => exact issuerKept_of_whenLive h (takeSlot_keepsIssuer _)
  | opInvalid code => exact absurd h (exec_opInvalid_ne_next code s t)

/-- Settles O16: SUBMIT starts its Request where none was active; every other step keeps the issuer's part. -/
theorem issuerFieldsKept : Obligations.IssuerFieldsKept := by
  unfold Obligations.IssuerFieldsKept
  intro i s t q' h hq'
  have hcases : IssuerKept s t ∨ s.req = none ∧
      ∃ r, i = .submit r ∧ IssuerKept { s with req := some (Request.withRoles r) } t := by
    by_cases hi : ∃ r, i = .submit r
    · obtain ⟨r, rfl⟩ := hi
      exact (exec_submit_next h).imp_right (And.imp_right fun hkept => ⟨r, rfl, hkept⟩)
    · exact .inl (exec_keepsIssuer (not_exists.1 hi) h)
  obtain hkept | ⟨hidle, r, rfl, hkept⟩ := hcases
  · obtain ⟨q, hq, hpart⟩ := hkept q' hq'
    refine ⟨fun p hp => ?_, fun hnone => nomatch hnone.symm.trans hq⟩
    cases hp.symm.trans hq
    exact hpart
  · obtain ⟨q, hq, hpart⟩ := hkept q' hq'
    cases hq
    exact ⟨fun p hp => absurd (hidle.symm.trans hp) nofun, fun _ => ⟨r, rfl, hpart⟩⟩

/-! ### NOTIFY (R232) and ENV_RAISE (R240) -/

theorem exec_notify {s : State} (hf : s.fault = none) (hq : s.notifyQ ≠ []) :
    exec .notify s = (deliver s).outcome := by
  simp [exec, execNotify, whenEnabled, whenLive_live hf, hq]

/-- Settles O57: with a Request queued the notifier is enabled and delivers the head. -/
theorem notify : Obligations.Notify := by
  unfold Obligations.Notify
  intro s q rest hf hq
  rw [exec_notify hf (by simp [hq])]
  simp [deliver, hq, record]

theorem exec_envRaise {s : State} (hf : s.fault = none) (m : Word) :
    exec (.envRaise m) s = .next (envRaise m s) := by
  simp [exec, execEnvRaise, whenLive_live hf]

/-- Settles O59: the step is the raise; bits already set leave the status word, so the state, as it was. -/
theorem Environment.envRaise : Obligations.EnvRaise := by
  unfold Obligations.EnvRaise
  intro s m hf t
  have hraise : exec (.envRaise m) s = .next t := exec_envRaise hf m
  refine ⟨hraise, fun hset => ?_, rfl⟩
  rw [hraise]
  simp [t, hset]

end Sys2Proof.Machine

/-! The decoder and the encoder (spec/30_encoding.md): every operand's bytes give the operand back, an entry
that decodes carries its step's own bytes, and the proofs of DecodeEncode, EncodeDecode, OpCodesTotal and
DecodeWords. -/

namespace Sys2Proof

open Machine

/-! ### Words and their bytes (R67) -/

theorem wordOf_bytesOfWord (w : Word) :
    wordOf (byteOf w 0) (byteOf w 1) (byteOf w 2) (byteOf w 3) = w := Laws.RowBits.wordOf_bytes w

theorem halfOf_bytesOfHalf (h : Half) : halfOf (halfByteOf h 0) (halfByteOf h 1) = h :=
  (BitVec.extractLsb'_append_extractLsb'_eq_extractLsb' rfl).trans BitVec.extractLsb'_eq_self

/-- Byte k of four bytes in a row is the k-th of them. -/
theorem byteOf_wordOf (a b c d : Byte) : byteOf (wordOf a b c d) 0 = a ∧ byteOf (wordOf a b c d) 1 = b ∧
    byteOf (wordOf a b c d) 2 = c ∧ byteOf (wordOf a b c d) 3 = d := by
  refine ⟨?_, ?_, ?_, ?_⟩ <;> apply BitVec.eq_of_getLsbD_eq <;> intro i hi <;>
    simp only [byteOf, wordOf, BitVec.getLsbD_extractLsb', BitVec.getLsbD_append] <;>
    interval_cases i <;> rfl

theorem bytesOfWord_wordOf (a b c d : Byte) : bytesOfWord (wordOf a b c d) = [a, b, c, d] := by
  obtain ⟨h0, h1, h2, h3⟩ := byteOf_wordOf a b c d
  simp only [bytesOfWord, h0, h1, h2, h3]

theorem bytesOfHalf_halfOf (a b : Byte) : bytesOfHalf (halfOf a b) = [a, b] := by
  have hlow : halfByteOf (halfOf a b) 0 = a := BitVec.extractLsb'_append_eq_right
  have hhigh : halfByteOf (halfOf a b) 1 = b := BitVec.extractLsb'_append_eq_left
  rw [bytesOfHalf, hlow, hhigh]

/-- R9: swapping the bytes twice gives the word back. -/
theorem bswap32_bswap32 (w : Word) : bswap32 (bswap32 w) = w := by
  obtain ⟨h0, h1, h2, h3⟩ := byteOf_wordOf (byteOf w 3) (byteOf w 2) (byteOf w 1) (byteOf w 0)
  rw [bswap32, bswap32, h0, h1, h2, h3, wordOf_bytesOfWord]

/-! ### Status words (R94, R104, R192; log 14) -/

/-- The step a status word names whose first classified bit is at position n. -/
def statusRow (n : Nat) (w : Word) : Instr :=
  match n with
  | 0 => .stCmdComplete w
  | 1 => .stXferComplete w
  | 4 => .stSpaceAvail w
  | 5 => .stDataAvail w
  | 6 => .stCardInsert w
  | 7 => .stCardRemove w
  | 8 => .stCardInt w
  | 16 => .stCmdTimeout w
  | 17 => .stCmdCrc w
  | 18 => .stCmdEndBit w
  | 19 => .stCmdIndex w
  | 20 => .stDataTimeout w
  | 21 => .stDataCrc w
  | 22 => .stDataEndBit w
  | _ => .stUnclassified w

theorem statusWordOf_iff {n : Nat} {w : Word} : statusWordOf n w = true ↔
    w ≠ 0 ∧ w ≠ BitVec.allOnes 32 ∧ leadBit w = some n := by
  simp only [statusWordOf, Bool.and_eq_true, bne_iff_ne, beq_iff_eq, and_assoc]

theorem unclassifiedWord_iff {w : Word} : unclassifiedWord w = true ↔
    w ≠ 0 ∧ w ≠ BitVec.allOnes 32 ∧ leadBit w = none := by
  simp only [unclassifiedWord, Bool.and_eq_true, bne_iff_ne, beq_iff_eq, and_assoc]

theorem mem_classifiedPositions {w : Word} {n : Nat} (h : leadBit w = some n) : n ∈ classifiedPositions :=
  List.mem_of_find?_eq_some h

theorem decodeIntStat_status {n : Nat} {w : Word} (h : statusWordOf n w = true) :
    decodeIntStat w = statusRow n w := by
  obtain ⟨h0, h1, hl⟩ := statusWordOf_iff.1 h
  have hn := mem_classifiedPositions hl
  rw [decodeIntStat, if_neg h0, if_neg h1, hl]
  simp only [classifiedPositions, List.mem_cons, List.not_mem_nil, or_false] at hn
  rcases hn with rfl | rfl | rfl | rfl | rfl | rfl | rfl | rfl | rfl | rfl | rfl | rfl | rfl | rfl <;> rfl

theorem decodeIntStat_unclassified {w : Word} (h : unclassifiedWord w = true) :
    decodeIntStat w = .stUnclassified w := by
  obtain ⟨h0, h1, hl⟩ := unclassifiedWord_iff.1 h
  rw [decodeIntStat, if_neg h0, if_neg h1, hl]

/-! ### Decoding what was encoded -/

section
variable {c : Byte}

theorem decode_opWord {f : Word → Instr}
    (hc : ∀ rest, decodeOp c rest Request.blank = operandWord f rest) (w : Word) :
    decode (opEntry c (bytesOfWord w)) = .ok (f w) := by
  show decodeOp c (bytesOfWord w) Request.blank = _
  rw [hc, bytesOfWord, operandWord, wordOf_bytesOfWord]

/-- An operation code outside the two tables decodes to OP_INVALID (R111). -/
theorem decodeOp_unnamed (h : namedOp c = false) (rest : List Byte) (req : Request) :
    decodeOp c rest req = operand0 (.opInvalid c) rest := by
  unfold decodeOp
  split
  case h_32 => rfl
  all_goals simp_all [namedOp]

end

theorem decode_intStat (w : Word) :
    decode (wordEntry .intStat (bytesOfWord w)) = .ok (decodeIntStat w) := by
  show Except.ok (decodeIntStat (wordOf (byteOf w 0) (byteOf w 1) (byteOf w 2) (byteOf w 3))) = _
  rw [wordOf_bytesOfWord]

/-- A status word in the encoding of its own row decodes to that row's step. -/
theorem decode_statusWord {n : Nat} {w : Word} (h : statusWordOf n w = true) :
    decode (wordEntry .intStat (bytesOfWord w)) = .ok (statusRow n w) := by
  rw [decode_intStat, decodeIntStat_status h]

/-- Settles O1: the bytes of each operand give it back, and a status word names the row of its lead bit. -/
theorem decodeEncode : Obligations.DecodeEncode := by
  unfold Obligations.DecodeEncode
  intro i hi
  cases i with
  | attach | detach | submit | irq | wdog | workFinish | workCard | notify | cancel | finishCmd | prepare
  | pio | pioReadBlock | pioWriteBlock | rspctlNone | rspctlShort | rspctlShortbusy | rspctlLong | rspctlR3
  | datactlRead | datactlWrite | abortCmd | abortData | powerOff | powerUp | powerOn | shapeNone
  | shapeShort | shapeShortbusy | shapeLong | shapeR3 | dirRead | dirWrite | roleSbc | rolePrimary
  | roleStop => rfl
  | setPower m => cases m <;> rfl
  | envCard b => cases b <;> rfl
  | issue r => cases r <;> rfl
  | finishData e => cases e <;> rfl
  | abortSeq k => cases k <;> rfl
  | schedule w => cases w <;> rfl
  | envRaise m => exact decode_opWord (fun _ => rfl) m
  | cmdIrq m => exact decode_opWord (fun _ => rfl) m
  | dataIrq m => exact decode_opWord (fun _ => rfl) m
  | read8 off => exact decode_opWord (fun _ => rfl) off
  | read32 off => exact decode_opWord (fun _ => rfl) off
  | arm n =>
    have hn : n < 2 ^ 32 := by simpa [Instr.wellFormed] using hi
    have harm : decode (encode (.arm n)) = .ok (.arm (BitVec.ofNat 32 n).toNat) :=
      decode_opWord (f := fun w => .arm w.toNat) (fun _ => rfl) _
    rw [harm, BitVec.toNat_ofNat, Nat.mod_eq_of_lt hn]
  | triggerBlock size dir =>
    have hsize := congrArg (fun h => Except.ok (ε := DecodeError) (Instr.triggerBlock h dir)) (halfOf_bytesOfHalf size)
    cases dir <;> exact hsize
  | log k =>
    cases k with
    | unclassifiedBits m =>
      exact congrArg (fun v => Except.ok (Instr.log (.unclassifiedBits v))) (wordOf_bytesOfWord m)
    | cardIntBits m => exact congrArg (fun v => Except.ok (Instr.log (.cardIntBits v))) (wordOf_bytesOfWord m)
    | _ => rfl
  | write8 off v => exact congrArg (fun o => Except.ok (Instr.write8 o v)) (wordOf_bytesOfWord off)
  | write32 off v =>
    exact congrArg₂ (fun o x => Except.ok (Instr.write32 o x)) (wordOf_bytesOfWord off) (wordOf_bytesOfWord v)
  | write16 off v =>
    exact congrArg₂ (fun o x => Except.ok (Instr.write16 o x)) (wordOf_bytesOfWord off) (halfOf_bytesOfHalf v)
  | cmdbyte opcode =>
    show decodeCmdByte (1#2 ++ opcode) = _
    rw [decodeCmdByte, if_pos BitVec.extractLsb'_append_eq_left, BitVec.extractLsb'_append_eq_right]
  | argword arg =>
    show Except.ok (Instr.argword (bswap32 (wordOf _ _ _ _))) = _
    rw [wordOf_bytesOfWord, bswap32_bswap32]
  | blksz16 b =>
    show decodeBlkSz (halfOf _ _) = _
    rw [halfOf_bytesOfHalf, decodeBlkSz, if_pos BitVec.extractLsb'_append_eq_left,
      BitVec.extractLsb'_append_eq_right]
  | stCmdComplete | stXferComplete | stSpaceAvail | stDataAvail | stCardInsert | stCardRemove | stCardInt
  | stCmdTimeout | stCmdCrc | stCmdEndBit | stCmdIndex | stDataTimeout | stDataCrc | stDataEndBit =>
    exact decode_statusWord hi
  | stUnclassified w =>
    show decode (wordEntry .intStat (bytesOfWord w)) = _
    rw [decode_intStat, decodeIntStat_unclassified hi]
  | spuriousZero | spuriousAllOnes => rfl
  | shapeInvalid c => revert c; decide
  | opInvalid c =>
    have hc : namedOp c = false := by simpa [Instr.wellFormed] using hi
    exact decodeOp_unnamed hc [] Request.blank

/-! ### The operands an entry's bytes name -/

section
variable {i : Instr} {bytes : List Byte}

theorem operand0_sound {j : Instr} (h : operand0 j bytes = .ok i) : i = j ∧ bytes = [] := by
  unfold operand0 at h
  split at h <;> cases h
  exact ⟨rfl, rfl⟩

theorem operand1_sound {f : Byte → Except DecodeError Instr} (h : operand1 f bytes = .ok i) :
    ∃ b, bytes = [b] ∧ f b = .ok i := by
  unfold operand1 at h
  split at h
  · exact ⟨_, rfl, h⟩
  · cases h

theorem operandWord_sound {f : Word → Instr} (h : operandWord f bytes = .ok i) :
    ∃ w, i = f w ∧ bytes = bytesOfWord w := by
  unfold operandWord at h
  split at h <;> cases h
  exact ⟨_, rfl, (bytesOfWord_wordOf _ _ _ _).symm⟩

end

section
variable {b : Byte} {i : Instr}

theorem roleOperand_sound {f : Role → Instr} (h : roleOperand f b = .ok i) :
    ∃ r : Role, i = f r ∧ b = r.code := by
  unfold roleOperand at h
  split at h <;> cases h
  case h_1 hb => exact ⟨.sbc, rfl, BitVec.eq_of_toNat_eq hb⟩
  case h_2 hb => exact ⟨.primary, rfl, BitVec.eq_of_toNat_eq hb⟩
  case h_3 hb => exact ⟨.stop, rfl, BitVec.eq_of_toNat_eq hb⟩

theorem dirOperand_sound {f : Dir → Instr} (h : dirOperand f b = .ok i) :
    ∃ d : Dir, i = f d ∧ b = d.code := by
  unfold dirOperand at h
  split at h <;> cases h
  case h_1 hb => exact ⟨.read, rfl, BitVec.eq_of_toNat_eq hb⟩
  case h_2 hb => exact ⟨.write, rfl, BitVec.eq_of_toNat_eq hb⟩

theorem errOperand_sound {f : Err → Instr} (h : errOperand f b = .ok i) :
    ∃ e : Err, i = f e ∧ b = e.code := by
  unfold errOperand at h
  split at h <;> cases h
  case h_1 hb => exact ⟨.ok, rfl, BitVec.eq_of_toNat_eq hb⟩
  case h_2 hb => exact ⟨.timeout, rfl, BitVec.eq_of_toNat_eq hb⟩
  case h_3 hb => exact ⟨.protocolViolation, rfl, BitVec.eq_of_toNat_eq hb⟩
  case h_4 hb => exact ⟨.noMedium, rfl, BitVec.eq_of_toNat_eq hb⟩

theorem modeOperand_sound {f : PowerMode → Instr} (h : modeOperand f b = .ok i) :
    ∃ m : PowerMode, i = f m ∧ b = m.code := by
  unfold modeOperand at h
  split at h <;> cases h
  case h_1 hb => exact ⟨.off, rfl, BitVec.eq_of_toNat_eq hb⟩
  case h_2 hb => exact ⟨.up, rfl, BitVec.eq_of_toNat_eq hb⟩
  case h_3 hb => exact ⟨.on, rfl, BitVec.eq_of_toNat_eq hb⟩

theorem boolOperand_sound {f : Bool → Instr} (h : boolOperand f b = .ok i) :
    ∃ x : Bool, i = f x ∧ b = if x then 1 else 0 := by
  unfold boolOperand at h
  split at h <;> cases h
  case h_1 hb => exact ⟨false, rfl, BitVec.eq_of_toNat_eq hb⟩
  case h_2 hb => exact ⟨true, rfl, BitVec.eq_of_toNat_eq hb⟩

theorem workOperand_sound {f : WorkUnit → Instr} (h : workOperand f b = .ok i) :
    ∃ w : WorkUnit, i = f w ∧ b = w.code := by
  unfold workOperand at h
  split at h <;> cases h
  case h_1 hb => exact ⟨.finish, rfl, BitVec.eq_of_toNat_eq hb⟩
  case h_2 hb => exact ⟨.card, rfl, BitVec.eq_of_toNat_eq hb⟩

theorem abortOperand_sound {f : AbortKind → Instr} (h : abortOperand f b = .ok i) :
    ∃ k : AbortKind, i = f k ∧ b = k.code := by
  unfold abortOperand at h
  split at h <;> cases h
  case h_1 hb => exact ⟨.cmd, rfl, BitVec.eq_of_toNat_eq hb⟩
  case h_2 hb => exact ⟨.data, rfl, BitVec.eq_of_toNat_eq hb⟩

end

/-! ### An entry that decodes -/

/-- The step is well formed, and its encoding has this format and these bytes. -/
def EncodedBy (i : Instr) (fmt : Format) (bytes : List Byte) : Prop :=
  i.wellFormed = true ∧ (encode i).fmt = fmt ∧ (encode i).bytes = bytes

theorem byte_eq_of_toNat {c : Byte} {n : Nat} (h : c.toNat = n) : c = BitVec.ofNat 8 n := by
  rw [← h, BitVec.ofNat_toNat, BitVec.setWidth_eq]

section
variable {bytes : List Byte} {i : Instr}

theorem triggerOperands_sound (h : triggerOperands bytes = .ok i) :
    EncodedBy i .op (0x16 :: bytes) := by
  unfold triggerOperands at h
  split at h
  case h_2 => cases h
  case h_1 s0 s1 b =>
    obtain ⟨d, rfl, rfl⟩ := dirOperand_sound h
    exact ⟨rfl, rfl, by simp [encode, opEntry, bytesOfHalf_halfOf]⟩

theorem logOperands_sound (h : logOperands bytes = .ok i) : EncodedBy i .op (0x1E :: bytes) := by
  unfold logOperands at h
  split at h
  case h_2 => cases h
  case h_1 k a b c d =>
    have hbytes : ∀ kind : LogKind, k = kind.code → kind.mask = wordOf a b c d →
        EncodedBy (.log kind) .op [0x1E, k, a, b, c, d] := fun kind hcode hmask =>
      ⟨rfl, rfl, by simp [encode, opEntry, ← hcode, hmask, bytesOfWord_wordOf]⟩
    dsimp only at h
    split at h
    case h_1 h4 =>
      cases h
      exact hbytes _ (byte_eq_of_toNat h4) rfl
    case h_2 h5 =>
      cases h
      exact hbytes _ (byte_eq_of_toNat h5) rfl
    case h_3 =>
      split at h
      case isFalse => cases h
      case isTrue hm =>
        split at h <;> cases h
        case h_1 h0 => exact hbytes _ (byte_eq_of_toNat h0) hm.symm
        case h_2 h1 => exact hbytes _ (byte_eq_of_toNat h1) hm.symm
        case h_3 h2 => exact hbytes _ (byte_eq_of_toNat h2) hm.symm
        case h_4 h3 => exact hbytes _ (byte_eq_of_toNat h3) hm.symm

theorem write8Operands_sound (h : write8Operands bytes = .ok i) : EncodedBy i .op (0x22 :: bytes) := by
  unfold write8Operands at h
  split at h <;> cases h
  exact ⟨rfl, rfl, by simp [encode, opEntry, bytesOfWord_wordOf]⟩

theorem write32Operands_sound (h : write32Operands bytes = .ok i) : EncodedBy i .op (0x23 :: bytes) := by
  unfold write32Operands at h
  split at h <;> cases h
  exact ⟨rfl, rfl, by simp [encode, opEntry, bytesOfWord_wordOf]⟩

theorem write16Operands_sound (h : write16Operands bytes = .ok i) : EncodedBy i .op (0x24 :: bytes) := by
  unfold write16Operands at h
  split at h <;> cases h
  exact ⟨rfl, rfl, by simp [encode, opEntry, bytesOfWord_wordOf, bytesOfHalf_halfOf]⟩

end

theorem decodeOp_sound {c : Byte} {rest : List Byte} {req : Request} {i : Instr}
    (h : decodeOp c rest req = .ok i) : EncodedBy i .op (c :: rest) := by
  cases hnamed : namedOp c with
  | false =>
    rw [decodeOp_unnamed hnamed] at h
    obtain ⟨rfl, rfl⟩ := operand0_sound h
    exact ⟨by simp [Instr.wellFormed, hnamed], rfl, rfl⟩
  | true =>
    unfold decodeOp at h
    split at h
    case h_1 hc | h_2 hc | h_3 hc | h_4 hc | h_5 hc | h_6 hc | h_7 hc | h_8 hc | h_14 hc | h_16 hc
      | h_17 hc | h_20 hc | h_21 hc | h_22 hc =>
      obtain ⟨rfl, rfl⟩ := operand0_sound h
      exact ⟨rfl, rfl, by rw [byte_eq_of_toNat hc]; rfl⟩
    case h_10 hc | h_15 hc | h_19 hc | h_27 hc | h_28 hc =>
      obtain ⟨w, rfl, rfl⟩ := operandWord_sound h
      exact ⟨rfl, rfl, by rw [byte_eq_of_toNat hc]; rfl⟩
    case h_13 hc =>
      obtain ⟨w, rfl, rfl⟩ := operandWord_sound h
      refine ⟨by simpa [Instr.wellFormed] using w.isLt, rfl, ?_⟩
      rw [byte_eq_of_toNat hc]
      simp [encode, opEntry]
    case h_9 hc =>
      obtain ⟨b, rfl, hb⟩ := operand1_sound h
      obtain ⟨m, rfl, rfl⟩ := modeOperand_sound hb
      exact ⟨rfl, rfl, by rw [byte_eq_of_toNat hc]; rfl⟩
    case h_11 hc =>
      obtain ⟨b, rfl, hb⟩ := operand1_sound h
      obtain ⟨x, rfl, rfl⟩ := boolOperand_sound hb
      exact ⟨rfl, rfl, by rw [byte_eq_of_toNat hc]; rfl⟩
    case h_12 hc =>
      obtain ⟨b, rfl, hb⟩ := operand1_sound h
      obtain ⟨r, rfl, rfl⟩ := roleOperand_sound hb
      exact ⟨rfl, rfl, by rw [byte_eq_of_toNat hc]; rfl⟩
    case h_23 hc =>
      obtain ⟨b, rfl, hb⟩ := operand1_sound h
      obtain ⟨e, rfl, rfl⟩ := errOperand_sound hb
      exact ⟨rfl, rfl, by rw [byte_eq_of_toNat hc]; rfl⟩
    case h_24 hc =>
      obtain ⟨b, rfl, hb⟩ := operand1_sound h
      obtain ⟨k, rfl, rfl⟩ := abortOperand_sound hb
      exact ⟨rfl, rfl, by rw [byte_eq_of_toNat hc]; rfl⟩
    case h_25 hc =>
      obtain ⟨b, rfl, hb⟩ := operand1_sound h
      obtain ⟨w, rfl, rfl⟩ := workOperand_sound hb
      exact ⟨rfl, rfl, by rw [byte_eq_of_toNat hc]; rfl⟩
    case h_18 hc =>
      rw [byte_eq_of_toNat hc]
      exact triggerOperands_sound h
    case h_26 hc =>
      rw [byte_eq_of_toNat hc]
      exact logOperands_sound h
    case h_29 hc =>
      rw [byte_eq_of_toNat hc]
      exact write8Operands_sound h
    case h_30 hc =>
      rw [byte_eq_of_toNat hc]
      exact write32Operands_sound h
    case h_31 hc =>
      rw [byte_eq_of_toNat hc]
      exact write16Operands_sound h
    case h_32 =>
      simp_all only [namedOp, imp_false, Bool.or_eq_true, Bool.and_eq_true, decide_eq_true_eq]
      omega

theorem decodeIntStat_sound (w : Word) : EncodedBy (decodeIntStat w) .intStat (bytesOfWord w) := by
  by_cases h0 : w = 0
  · subst h0
    exact ⟨rfl, rfl, rfl⟩
  by_cases h1 : w = BitVec.allOnes 32
  · subst h1
    exact ⟨rfl, rfl, rfl⟩
  cases hl : leadBit w with
  | none =>
    have hw : unclassifiedWord w = true := unclassifiedWord_iff.2 ⟨h0, h1, hl⟩
    rw [decodeIntStat_unclassified hw]
    exact ⟨hw, rfl, rfl⟩
  | some n =>
    have hw : statusWordOf n w = true := statusWordOf_iff.2 ⟨h0, h1, hl⟩
    have hn := mem_classifiedPositions hl
    rw [decodeIntStat_status hw]
    simp only [classifiedPositions, List.mem_cons, List.not_mem_nil, or_false] at hn
    rcases hn with rfl | rfl | rfl | rfl | rfl | rfl | rfl | rfl | rfl | rfl | rfl | rfl | rfl | rfl <;>
      exact ⟨hw, rfl, rfl⟩

section
variable {b : Byte} {i : Instr}

theorem decodeCmdByte_sound (h : decodeCmdByte b = .ok i) : EncodedBy i .cmdByte [b] := by
  unfold decodeCmdByte at h
  split at h <;> cases h
  case isTrue hb =>
    have hsplit : (1#2 ++ b.extractLsb' 0 6 : Byte) = b := by
      rw [← hb]
      exact (BitVec.extractLsb'_append_extractLsb'_eq_extractLsb' rfl).trans BitVec.extractLsb'_eq_self
    exact ⟨rfl, rfl, congrArg (fun v => [v]) hsplit⟩

theorem decodeRspCtl_sound (h : decodeRspCtl b = .ok i) : EncodedBy i .rspCtl [b] := by
  unfold decodeRspCtl at h
  split at h <;> cases h
  all_goals
    rename_i hb
    rw [byte_eq_of_toNat hb]
    exact ⟨rfl, rfl, rfl⟩

theorem decodeDataCtl_sound (h : decodeDataCtl b = .ok i) : EncodedBy i .dataCtl [b] := by
  unfold decodeDataCtl at h
  split at h <;> cases h
  all_goals
    rename_i hb
    rw [byte_eq_of_toNat hb]
    exact ⟨rfl, rfl, rfl⟩

theorem decodeAbortCtl_sound (h : decodeAbortCtl b = .ok i) : EncodedBy i .abortCtl [b] := by
  unfold decodeAbortCtl at h
  split at h <;> cases h
  all_goals
    rename_i hb
    rw [byte_eq_of_toNat hb]
    exact ⟨rfl, rfl, rfl⟩

theorem decodeShape_sound (h : decodeShape b = .ok i) : EncodedBy i .shape [b] := by
  unfold decodeShape at h
  split at h <;> cases h
  all_goals
    rename_i hb
    rw [byte_eq_of_toNat hb]
    exact ⟨rfl, rfl, rfl⟩

theorem decodeDir_sound (h : decodeDir b = .ok i) : EncodedBy i .dir [b] := by
  unfold decodeDir at h
  split at h <;> cases h
  all_goals
    rename_i hb
    rw [byte_eq_of_toNat hb]
    exact ⟨rfl, rfl, rfl⟩

theorem decodeRole_sound (h : decodeRole b = .ok i) : EncodedBy i .role [b] := by
  unfold decodeRole at h
  split at h <;> cases h
  all_goals
    rename_i hb
    rw [byte_eq_of_toNat hb]
    exact ⟨rfl, rfl, rfl⟩

theorem decodeBlkSz_sound {a : Byte} (h : decodeBlkSz (halfOf a b) = .ok i) : EncodedBy i .blkSz [a, b] := by
  unfold decodeBlkSz at h
  split at h <;> cases h
  case isTrue hb =>
    have hsplit : (0#6 ++ (halfOf a b).extractLsb' 0 10 : Half) = halfOf a b := by
      rw [← hb]
      exact (BitVec.extractLsb'_append_extractLsb'_eq_extractLsb' rfl).trans BitVec.extractLsb'_eq_self
    exact ⟨rfl, rfl, (congrArg bytesOfHalf hsplit).trans (bytesOfHalf_halfOf a b)⟩

theorem decodePowerCtl_sound {bytes : List Byte} (h : decodePowerCtl bytes = .ok i) :
    EncodedBy i .powerCtl bytes := by
  unfold decodePowerCtl at h
  split at h
  case h_1 =>
    split at h <;> cases h
    case isTrue hb => exact ⟨rfl, rfl, by rw [hb]; rfl⟩
  case h_2 =>
    split at h
    case isFalse => cases h
    case isTrue hb =>
      subst hb
      split at h <;> cases h
      all_goals
        rename_i hm
        rw [byte_eq_of_toNat hm]
        exact ⟨rfl, rfl, rfl⟩
  case h_3 => cases h

end

theorem decodeArgWord_sound (a b c d : Byte) :
    EncodedBy (.argword (bswap32 (wordOf a b c d))) .argWord [a, b, c, d] :=
  ⟨rfl, rfl, by simp [encode, wordEntry, bswap32_bswap32, bytesOfWord_wordOf]⟩

/-- Settles O2: each format's decoder accepts only the bytes that encode the step it answers. -/
theorem encodeDecode : Obligations.EncodeDecode := by
  unfold Obligations.EncodeDecode
  intro e i h
  show EncodedBy i e.fmt e.bytes
  unfold decode at h
  split at h
  case h_1 hfmt hbytes => rw [hfmt, hbytes]; exact decodeOp_sound h
  case h_2 hfmt hbytes => rw [hfmt, hbytes]; exact decodeCmdByte_sound h
  case h_3 hfmt hbytes => rw [hfmt, hbytes]; cases h; exact decodeArgWord_sound _ _ _ _
  case h_4 hfmt hbytes => rw [hfmt, hbytes]; exact decodeRspCtl_sound h
  case h_5 hfmt hbytes => rw [hfmt, hbytes]; exact decodeDataCtl_sound h
  case h_6 hfmt hbytes => rw [hfmt, hbytes]; exact decodeBlkSz_sound h
  case h_7 hfmt hbytes => rw [hfmt, hbytes]; exact decodeAbortCtl_sound h
  case h_8 hfmt => rw [hfmt]; exact decodePowerCtl_sound h
  case h_9 hfmt hbytes =>
    rw [hfmt, hbytes, ← bytesOfWord_wordOf]
    cases h
    exact decodeIntStat_sound _
  case h_10 hfmt hbytes => rw [hfmt, hbytes]; exact decodeShape_sound h
  case h_11 hfmt hbytes => rw [hfmt, hbytes]; exact decodeDir_sound h
  case h_12 hfmt hbytes => rw [hfmt, hbytes]; exact decodeRole_sound h
  case h_13 => cases h

/-! ### Operation codes (R99, R100, R111) and words of the tables -/

/-- Operand bytes of zeros make a named code a step with a name (log 20). -/
theorem decodeOp_named : ∀ c : Byte, namedOp c = true → ∀ req : Request, ∃ i,
    decodeOp c (List.replicate (operandLength c) 0) req = .ok i ∧ ∀ d, i ≠ .opInvalid d := by
  intro c hc req
  simp only [namedOp, Bool.or_eq_true, Bool.and_eq_true, decide_eq_true_eq] at hc
  obtain ⟨n, hn⟩ : ∃ n, c.toNat = n := ⟨_, rfl⟩
  rw [byte_eq_of_toNat hn]
  rw [hn] at hc
  rcases hc with (hc | hc) | hc <;> obtain ⟨hlo, hhi⟩ := hc <;> interval_cases n <;>
    exact ⟨_, rfl, nofun⟩

theorem exec_opInvalid {s : State} (hf : s.fault = none) (c : Byte) :
    exec (.opInvalid c) s = .refused (.invalidOp c) := by
  simp [exec, execOpInvalid, whenLive_live hf]

/-- Settles O3: the tables' codes are `namedOp`'s, and no others decode to a step with a name. -/
theorem opCodesTotal : Obligations.OpCodesTotal := by
  unfold Obligations.OpCodesTotal
  refine ⟨fun c q hc => ?_, fun c q hc => ?_, fun c s hf => exec_opInvalid hf c⟩
  · exact decodeOp_unnamed hc [] q
  · obtain ⟨i, hi, hne⟩ := decodeOp_named c hc q
    exact ⟨_, i, hi, hne⟩

/-- Settles O4: each word is decoded within its format. -/
theorem decodeWords : Obligations.DecodeWords := by
  unfold Obligations.DecodeWords
  decide

end Sys2Proof

/-! A step is the rule of its agent, where that agent is enabled (R79, R253): the rule of every step, how exec
and the machine's step run it, and the proof of StepRuns. -/

namespace Sys2Proof.Machine

/-! ### The rule of every step -/

/-- PIO_READ_BLOCK's rule: one block of the active Data object (R177). -/
def readActiveBlock (s : State) : Res Unit :=
  match dataOf s with
  | none => .stuck (.undefinedOperand "PIO_READ_BLOCK")
  | some d => readBlock d.sg d.blksz s

/-- PIO_WRITE_BLOCK's rule: one block of the active Data object (R178). -/
def writeActiveBlock (s : State) : Res Unit :=
  match dataOf s with
  | none => .stuck (.undefinedOperand "PIO_WRITE_BLOCK")
  | some d => writeBlock d.sg d.blksz s

/-- The rule a step runs where its agent is enabled and no fault was raised. -/
def rule (i : Instr) (s : State) : Res Unit :=
  match i with
  | .attach => attachWindow s
  | .detach => detachWindow s
  | .submit r => submitRequest r s
  | .irq | .spuriousZero => dispatch s
  | .wdog => watchdogFire s
  | .workFinish => requestFinish s
  | .workCard => done (record .notifyPresence { s with cardPend := false })
  | .notify => deliver s
  | .setPower mode => setPowerMode mode s
  | .powerOff => setPowerMode .off s
  | .powerUp => setPowerMode .up s
  | .powerOn => setPowerMode .on s
  | .envRaise m => done (envRaise m s)
  | .envCard b => done (envCard b s)
  | .issue r => issue r s
  | .arm n => done (armTimer n s)
  | .cancel => done (cancelTimer s)
  | .cmdIrq mask => onCommandInterrupt mask s
  | .finishCmd => finishCommand s
  | .prepare => prepareData s
  | .triggerBlock size dir => triggerBlock size dir s
  | .dataIrq mask => onDataInterrupt mask s
  | .pio => transferPio s
  | .pioReadBlock => readActiveBlock s
  | .pioWriteBlock => writeActiveBlock s
  | .finishData e => finishData e s
  | .abortSeq k => abortSequence k s
  | .abortCmd => abortSequence .cmd s
  | .abortData => abortSequence .data s
  | .schedule w => done (scheduleWork w s)
  | .log k => done (logEvent k s)
  | .read8 off => (read8 off.toNat s).bind fun _ t => done t
  | .read32 off => (read32 off.toNat s).bind fun _ t => done t
  | .write8 off v => write8 off.toNat v s
  | .write32 off v => write32 off.toNat v s
  | .write16 off v => write16 off.toNat v s
  | .cmdbyte opcode => writeReg8 .cmd (cmdByte s.params opcode.toNat) s
  | .argword arg => writeReg32 .arg (argWord s.params arg) s
  | .rspctlNone => writeReg8 .cmdCtrl (rspCtl s.params .noResponse) s
  | .rspctlShort => writeReg8 .cmdCtrl (rspCtl s.params .short) s
  | .rspctlShortbusy => writeReg8 .cmdCtrl (rspCtl s.params .shortBusy) s
  | .rspctlLong => writeReg8 .cmdCtrl (rspCtl s.params .long) s
  | .rspctlR3 => writeReg8 .cmdCtrl (rspCtl s.params .r3) s
  | .datactlRead | .dirRead => writeReg8 .dataCtrl (dataCtl s.params .read) s
  | .datactlWrite | .dirWrite => writeReg8 .dataCtrl (dataCtl s.params .write) s
  | .blksz16 n => writeReg16 .blksize (blkSz16 n.toNat) s
  | .shapeNone => launch (Shape.code .noResponse) s
  | .shapeShort => launch (Shape.code .short) s
  | .shapeShortbusy => launch (Shape.code .shortBusy) s
  | .shapeLong => launch (Shape.code .long) s
  | .shapeR3 => launch (Shape.code .r3) s
  | .shapeInvalid code => launch code s
  | .roleSbc => takeSlot .sbc s
  | .rolePrimary => takeSlot .primary s
  | .roleStop => takeSlot .stop s
  | .opInvalid code => .stuck (.invalidOp code)
  | i =>
    match raisedWord s.params i with
    | some w => dispatch (envRaise w s)
    | none => done s

/-! ### The status words (R94, R110; log 14) -/

section
variable {i : Instr} {s : State} {w : Word} (h : raisedWord s.params i = some w)
include h

theorem rule_raised : rule i s = dispatch (envRaise w s) := by
  cases i <;> cases h <;> rfl

theorem exec_raised : ∃ m, exec i s = raiseIrq m w s := by
  cases i <;> cases h <;> exact ⟨_, rfl⟩

theorem enabled_raised : enabled i s = s.attached := by
  cases i <;> cases h <;> rfl

end

/-! ### The gates (R79, R253; log 17) -/

section
variable {s : State} (hf : s.fault = none)
include hf

theorem whenEnabled_true {m : String} {b : Bool} (hb : b = true) (k : State → Answer) :
    whenEnabled m b s k = k s := by
  simp [whenEnabled, whenLive_live hf, hb]

theorem whenEnabled_false {m : String} {b : Bool} (hb : b = false) (k : State → Answer) :
    whenEnabled m b s k = .refused (.notEnabled m) := by
  simp [whenEnabled, whenLive_live hf, hb]

/-- R79: a step whose agent is enabled runs its rule. -/
theorem exec_enabled {i : Instr} (he : enabled i s = true) : exec i s = (rule i s).outcome := by
  cases hw : raisedWord s.params i with
  | some w =>
    obtain ⟨m, hm⟩ := exec_raised hw
    rw [hm, rule_raised hw]
    exact whenEnabled_true hf ((enabled_raised hw).symm.trans he) _
  | none =>
    have hgate : ∀ m, whenEnabled m (enabled i s) s (fun u => (rule i u).outcome) = (rule i s).outcome :=
      fun m => whenEnabled_true hf he _
    have hlive : whenLive s (fun u => (rule i u).outcome) = (rule i s).outcome := whenLive_live hf _
    cases i with
    | stCmdComplete | stXferComplete | stSpaceAvail | stDataAvail | stCardInsert | stCardRemove | stCardInt
    | stCmdTimeout | stCmdCrc | stCmdEndBit | stCmdIndex | stDataTimeout | stDataCrc | stDataEndBit
    | stUnclassified | spuriousAllOnes => cases hw
    | attach | detach | irq | spuriousZero | wdog | workFinish | workCard | notify | setPower | powerOff
    | powerUp | powerOn => exact hgate _
    | pioReadBlock =>
      show _ = (readActiveBlock s).outcome
      cases hd : dataOf s <;> simp [exec, execPioReadBlock, whenLive_live hf, readActiveBlock, hd]
    | pioWriteBlock =>
      show _ = (writeActiveBlock s).outcome
      cases hd : dataOf s <;> simp [exec, execPioWriteBlock, whenLive_live hf, writeActiveBlock, hd]
    | _ => exact hlive

/-- R79: a step whose agent is not enabled is refused by name (log 17). -/
theorem exec_notEnabled {i : Instr} (he : enabled i s = false) :
    ∃ m, exec i s = .refused (.notEnabled m) := by
  cases hw : raisedWord s.params i with
  | some w =>
    obtain ⟨m, hm⟩ := exec_raised hw
    rw [hm]
    exact ⟨m, whenEnabled_false hf ((enabled_raised hw).symm.trans he) _⟩
  | none =>
    have hgate : ∀ m, whenEnabled m (enabled i s) s (fun u => (rule i u).outcome) =
        .refused (.notEnabled m) := fun m => whenEnabled_false hf he _
    cases i with
    | stCmdComplete | stXferComplete | stSpaceAvail | stDataAvail | stCardInsert | stCardRemove | stCardInt
    | stCmdTimeout | stCmdCrc | stCmdEndBit | stCmdIndex | stDataTimeout | stDataCrc | stDataEndBit
    | stUnclassified | spuriousAllOnes => cases hw
    | attach | detach | irq | spuriousZero | wdog | workFinish | workCard | notify | setPower | powerOff
    | powerUp | powerOn => exact ⟨_, hgate _⟩
    | _ => cases he

end

/-- What a step that answers a next state did: it ran its rule, enabled, with no fault raised before. -/
theorem exec_next {i : Instr} {s t : State} (h : exec i s = .next t) :
    s.fault = none ∧ enabled i s = true ∧ (rule i s).outcome = .next t := by
  have hf := fault_none_of_exec_next h
  cases he : enabled i s with
  | false =>
    obtain ⟨m, hm⟩ := exec_notEnabled hf he
    exact nomatch hm.symm.trans h
  | true => exact ⟨hf, rfl, (exec_enabled hf he).symm.trans h⟩

/-! ### The machine's step (R107, R264; log 10, log 11) -/

theorem step_entry {s : State} {e : Entry} {rest : List Entry} (h : s.agenda = e :: rest) :
    step s = runEntry e { s with agenda := rest } := by
  simp [step, h]

theorem step_offer {s : State} (h : s.agenda = []) :
    step s = runOffer (Config.freeStep s.turns) { s with turns := s.turns + 1 } := by
  simp [step, h]

theorem runEntry_ok {e : Entry} {i : Instr} (h : decode e = .ok i) (s : State) : runEntry e s = exec i s := by
  simp [runEntry, h]

theorem runEntry_error {e : Entry} {d : DecodeError} (h : decode e = .error d) (s : State) :
    runEntry e s = whenLive s (fun _ => .refused (.undecodable d)) := by
  simp [runEntry, h]

theorem runOffer_inner {i : Instr} (hi : i.topLevel = false) (s : State) :
    runOffer i s = whenLive s (fun t => .next t) := by
  simp [runOffer, hi]

theorem runOffer_notEnabled {i : Instr} {s : State} {m : String} (hi : i.topLevel = true)
    (h : exec i s = .refused (.notEnabled m)) : runOffer i s = .next s := by
  simp [runOffer, hi, h]

theorem runOffer_exec {i : Instr} {s : State} (hi : i.topLevel = true)
    (h : ∀ m, exec i s ≠ .refused (.notEnabled m)) : runOffer i s = exec i s := by
  rw [runOffer, if_pos hi]
  split
  case h_1 m hm => exact absurd hm (h m)
  case h_2 => rfl

/-- An offer that answers a next state left the block as it was or ran a top-level step (log 11). -/
theorem runOffer_next {i : Instr} {s t : State} (h : runOffer i s = .next t) :
    t = s ∨ i.topLevel = true ∧ exec i s = .next t := by
  cases hi : i.topLevel with
  | false =>
    rw [runOffer_inner hi] at h
    obtain ⟨-, hnext⟩ := whenLive_next h
    cases hnext
    exact .inl rfl
  | true =>
    by_cases hne : ∃ m, exec i s = .refused (.notEnabled m)
    · obtain ⟨m, hm⟩ := hne
      rw [runOffer_notEnabled hi hm] at h
      cases h
      exact .inl rfl
    · rw [runOffer_exec hi (not_exists.1 hne)] at h
      exact .inr ⟨rfl, h⟩

/-- What a step of the machine that answers a next state did: an entry's step with the entry taken off, or
nothing beyond the turn, or a top-level step some agent offered. -/
theorem step_next {s t : State} (h : step s = .next t) :
    (∃ e rest i, s.agenda = e :: rest ∧ decode e = .ok i ∧ exec i { s with agenda := rest } = .next t) ∨
    s.agenda = [] ∧ (t = { s with turns := s.turns + 1 } ∨
      ∃ i : Instr, i.topLevel = true ∧ exec i { s with turns := s.turns + 1 } = .next t) := by
  by_cases ha : s.agenda = []
  · rw [step_offer ha] at h
    exact .inr ⟨ha, (runOffer_next h).imp_right fun hrun => ⟨_, hrun⟩⟩
  · obtain ⟨e, rest, ha⟩ := List.exists_cons_of_ne_nil ha
    rw [step_entry ha] at h
    cases hd : decode e with
    | error d =>
      rw [runEntry_error hd] at h
      exact nomatch (whenLive_next h).2
    | ok i =>
      rw [runEntry_ok hd] at h
      exact .inl ⟨e, rest, i, ha, hd, h⟩

/-- Settles O5: one equation per case of the agenda's head, of the decoder, and of the offer. -/
theorem stepRuns : Obligations.StepRuns := by
  unfold Obligations.StepRuns
  refine ⟨fun s e rest i ha hd => ?_, fun s e rest d ha hf hd => ?_, fun s ha => step_offer ha,
    fun i s hi h => runOffer_exec hi h, fun i s m hi h => runOffer_notEnabled hi h, fun i s hi hf => ?_⟩
  · rw [step_entry ha, runEntry_ok hd]
  · rw [step_entry ha, runEntry_error hd]
    exact whenLive_live (s := { s with agenda := rest }) hf _
  · rw [runOffer_inner hi, whenLive_live hf]

end Sys2Proof.Machine

/-! What every rule may do, said once (R8, R44, R59, R63, R124, R253): it keeps the parameters and issuer
memory's form, only adds legal events to the trace, writes only the pieces of state listed for it, and a
raise ends it with its fault as the last event. The proofs of FaultEndsEverything, EnabledExactly,
StepKeepsMemory, Frame and LegalAccessesOnly. -/

namespace Sys2Proof.Machine

/-! ### One move of a rule -/

/-- Two states agree on every piece of state outside W. -/
def Agrees (W : List Field) (s t : State) : Prop := ∀ f ∉ W, agree f s t

/-- Is an event the notification of a completed Request (R232)? -/
def isNotification : Event → Bool
  | .notifyComplete _ => true
  | _ => false

/-- What a rule may do between its start and one of its ends: W lists the pieces of state it may write, where
the parameters are legal. A rule that does not write the queue notifies nothing and ends no Request. -/
structure Moved (W : List Field) (s t : State) : Prop where
  params : t.params = s.params
  trace : ∃ es, t.trace = s.trace ++ es ∧ (∀ e ∈ es, legalEvent s.params e = true) ∧
    ∀ e ∈ es, isNotification e = true → .notifyQ ∈ W
  request : .notifyQ ∉ W → s.req.isSome = true → t.req.isSome = true
  memory : memoryOk s = true → memoryOk t = true
  frame : paramsOk s.params = true → Agrees W s t

theorem agree_refl (f : Field) (s : State) : agree f s s := by
  cases f <;> simp [agree]

theorem agree_trans {f : Field} {s t u : State} (h : agree f s t) (h' : agree f t u) : agree f s u := by
  cases f <;> simp_all [agree]

theorem Agrees.trans {W : List Field} {s t u : State} (h : Agrees W s t) (h' : Agrees W t u) :
    Agrees W s u := fun f hf => agree_trans (h f hf) (h' f hf)

theorem Agrees.mono {W W' : List Field} {s t : State} (h : Agrees W s t) (hW : W ⊆ W') : Agrees W' s t :=
  fun f hf => h f fun hmem => hf (hW hmem)

section
variable {W W' : List Field} {s t u : State}

theorem Moved.refl (W : List Field) (s : State) : Moved W s s where
  params := rfl
  trace := ⟨[], by simp⟩
  request _ := id
  memory := id
  frame _ f _ := agree_refl f s

theorem Moved.trans (h : Moved W s t) (h' : Moved W t u) : Moved W s u where
  params := h'.params.trans h.params
  trace := by
    obtain ⟨es, hes, hlegal, hnotify⟩ := h.trace
    obtain ⟨es', hes', hlegal', hnotify'⟩ := h'.trace
    refine ⟨es ++ es', by rw [hes', hes, List.append_assoc], fun e he => ?_, fun e he => ?_⟩
    · obtain he | he := List.mem_append.1 he
      · exact hlegal e he
      · exact h.params ▸ hlegal' e he
    · obtain he | he := List.mem_append.1 he
      · exact hnotify e he
      · exact hnotify' e he
  request hW := h'.request hW ∘ h.request hW
  memory := h'.memory ∘ h.memory
  frame hp := (h.frame hp).trans (h'.frame (h.params ▸ hp))

theorem Moved.mono (h : Moved W s t) (hW : W ⊆ W') : Moved W' s t where
  params := h.params
  trace := by
    obtain ⟨es, hes, hlegal, hnotify⟩ := h.trace
    exact ⟨es, hes, hlegal, fun e he hn => hW (hnotify e he hn)⟩
  request hW' := h.request fun hmem => hW' (hW hmem)
  memory := h.memory
  frame hp := (h.frame hp).mono hW

/-- An update that leaves the parameters, the trace and memory as they are. -/
theorem Moved.update (hparams : t.params = s.params) (htrace : t.trace = s.trace) (hmem : t.mem = s.mem)
    (h : Agrees W s t) (hreq : .notifyQ ∉ W → s.req.isSome = true → t.req.isSome = true := by exact fun _ => id) :
    Moved W s t where
  params := hparams
  trace := ⟨[], by simp [htrace]⟩
  request := hreq
  memory hm := by simpa only [memoryOk, hparams, hmem] using hm
  frame _ := h

end

/-! ### The moves of an operation -/

/-- The operation, run from s, moves within W: it goes on with the fault as it was, or raised one, its last
event; or it has no meaning there, but not for an agent that is not enabled. -/
def Res.Moves {α : Type} (W : List Field) (x : Res α) (s : State) : Prop :=
  match x with
  | .ok _ t => Moved W s t ∧ t.fault = s.fault
  | .raised t => Moved W s t ∧ ∃ r, t.fault = some r ∧ t.trace.getLast? = some (.fault r)
  | .stuck r => ∀ m, r ≠ .notEnabled m

section
variable {α β : Type} {W W' : List Field} {s t : State}

theorem Res.Moves.mono {x : Res α} (h : x.Moves W s) (hW : W ⊆ W') : x.Moves W' s := by
  cases x with
  | ok a t => exact ⟨h.1.mono hW, h.2⟩
  | raised t => exact ⟨h.1.mono hW, h.2⟩
  | stuck r => exact h

/-- A sharper list for legal parameters, where the frame is asked. -/
theorem Res.Moves.reframe {x : Res α} (h : x.Moves W s) (hW : .notifyQ ∉ W)
    (h' : paramsOk s.params = true → x.Moves W' s) : x.Moves W' s := by
  by_cases hp : paramsOk s.params = true
  · exact h' hp
  · have hmoved : ∀ {t}, Moved W s t → Moved W' s t := fun {t} ht => by
      obtain ⟨es, hes, hlegal, hnotify⟩ := ht.trace
      exact ⟨ht.params, ⟨es, hes, hlegal, fun e he hn => absurd (hnotify e he hn) hW⟩,
        fun _ => ht.request hW, ht.memory,
        fun hp' => absurd hp' hp⟩
    cases x with
    | ok a t => exact ⟨hmoved h.1, h.2⟩
    | raised t => exact ⟨hmoved h.1, h.2⟩
    | stuck r => exact h

theorem Res.Moves.after {x : Res α} (hx : x.Moves W t) (h : Moved W s t) (hf : t.fault = s.fault) :
    x.Moves W s := by
  cases x with
  | ok a u => exact ⟨h.trans hx.1, hx.2.trans hf⟩
  | raised u => exact ⟨h.trans hx.1, hx.2⟩
  | stuck r => exact hx

theorem Res.Moves.bind {x : Res α} {f : α → State → Res β} (hx : x.Moves W s)
    (hf : ∀ a t, (f a t).Moves W t) : (x.bind f).Moves W s := by
  cases x with
  | ok a t => exact (hf a t).after hx.1 hx.2
  | raised t => exact hx
  | stuck r => exact hx

theorem ok_moves (a : α) (h : Moved W s t) (hf : t.fault = s.fault) : (Res.ok a t).Moves W s := ⟨h, hf⟩

theorem done_moves (W : List Field) (s : State) : (done s).Moves W s := ⟨.refl W s, rfl⟩

theorem undefined_moves (W : List Field) (s : State) (n : String) :
    (Res.stuck (.undefinedOperand n) : Res α).Moves W s := nofun

end

/-! ### Elementary moves -/

/-- Recording an event that is no illegal access; a notification, where the queue is written. -/
theorem moved_record_in {W : List Field} (hW : .trace ∈ W) {e : Event} {s : State} (he : legalEvent s.params e = true)
    (hn : isNotification e = true → .notifyQ ∈ W) : Moved W s (record e s) where
  params := rfl
  trace := ⟨[e], rfl, by simpa using he, by simpa using hn⟩
  request _ := id
  memory := id
  frame _ f hf := by cases f <;> simp_all [agree]

theorem moved_record {e : Event} {s : State} (he : legalEvent s.params e = true)
    (hn : isNotification e = false := by rfl) : Moved [.trace] s (record e s) :=
  moved_record_in (List.mem_singleton.2 rfl) he fun h => (nomatch hn.symm.trans h)

theorem raise_moves {α : Type} (c : FaultReason) (s : State) :
    (raise c s : Res α).Moves [.fault, .trace] s := by
  refine ⟨?_, c, rfl, by simp⟩
  have hset : Moved [.fault, .trace] s { s with fault := some c } :=
    .update rfl rfl rfl fun f hf => by cases f <;> simp_all [agree]
  exact hset.trans ((moved_record rfl).mono (by simp))

theorem moved_logEvent (k : LogKind) (s : State) : Moved [.trace] s (logEvent k s) := moved_record rfl

theorem moved_armTimer (n : Nat) (s : State) : Moved [.trace, .timer] s (armTimer n s) :=
  have hset : Moved [.trace, .timer] s { s with timer := some n } :=
    .update rfl rfl rfl fun f hf => by cases f <;> simp_all [agree]
  hset.trans ((moved_record rfl).mono (by simp))

theorem moved_cancelTimer (s : State) : Moved [.trace, .timer] s (cancelTimer s) :=
  have hset : Moved [.trace, .timer] s { s with timer := none } :=
    .update rfl rfl rfl fun f hf => by cases f <;> simp_all [agree]
  hset.trans ((moved_record rfl).mono (by simp))

theorem moved_scheduleFinish (s : State) : Moved [.finishPend] s (scheduleWork .finish s) :=
  .update rfl rfl rfl fun f hf => by cases f <;> simp_all [agree]

theorem moved_scheduleCard (s : State) : Moved [.cardPend] s (scheduleWork .card s) :=
  .update rfl rfl rfl fun f hf => by cases f <;> simp_all [agree]

theorem moved_updCmd (r : Role) (g : Command → Command) (s : State) : Moved [.req] s (updCmd r g s) :=
  .update rfl rfl rfl (fun f hf => by cases f <;> simp_all [agree]) fun _ h => by simpa [updCmd] using h

theorem moved_cursor (c : Cursor) (s : State) : Moved [.cursor] s { s with cursor := c } :=
  .update rfl rfl rfl fun f hf => by cases f <;> simp_all [agree]

theorem moved_curCmd (r : Option Role) (s : State) : Moved [.curCmd] s { s with curCmd := r } :=
  .update rfl rfl rfl fun f hf => by cases f <;> simp_all [agree]

theorem moved_dataEarly (b : Bool) (s : State) : Moved [.dataEarly] s { s with dataEarly := b } :=
  .update rfl rfl rfl fun f hf => by cases f <;> simp_all [agree]

theorem moved_timerOff (s : State) : Moved [.timer] s { s with timer := none } :=
  .update rfl rfl rfl fun f hf => by cases f <;> simp_all [agree]

theorem moved_envRaise (m : Word) (s : State) : Moved [.reg .intStatus] s (envRaise m s) :=
  .update rfl rfl rfl fun f hf => by
    cases f with
    | reg r => cases r <;> simp_all [agree, envRaise, regValue]
    | _ => simp_all [agree]

theorem moved_envCard (b : Bool) (s : State) : Moved [.reg .present] s (envCard b s) :=
  .update rfl rfl rfl fun f hf => by
    cases f with
    | reg r => cases r <;> simp_all [agree, envCard, regValue]
    | _ => simp_all [agree]

/-- A byte stored inside the address space (R63). -/
theorem moved_memWrite {a : Nat} {s : State} (ha : a < 2 ^ s.params.memAddrWidth) (v : Byte) :
    Moved [.trace, .mem] s (memWrite a v s) where
  params := rfl
  trace := ⟨[.mw a v], rfl, by simp [legalEvent], by simp [isNotification]⟩
  request _ := id
  memory h := memWrite_ok h ha v
  frame _ f hf := by cases f <;> simp_all [agree]

theorem moved_memRead (a : Nat) (s : State) : Moved [.trace] s (memRead a s).2 := moved_record rfl

/-! ### Register accesses (R62, R115 to R119) -/

/-- What the window check found: a register at that offset, of that width, in that direction. -/
theorem check_some {s : State} {off bytes : Nat} {allowed : Reg → Bool} {r : Reg}
    (h : check s off bytes allowed = some r) :
    regAt s.params off = some r ∧ regOff s.params r = off ∧ regBytes r = bytes ∧ allowed r = true := by
  unfold check at h
  split at h
  · split at h
    · rename_i r' hat
      split at h
      · rename_i hr
        cases h
        obtain ⟨hb, hd⟩ := Bool.and_eq_true_iff.1 hr
        have hoff : regOff s.params r = off := by simpa using List.find?_some hat
        exact ⟨hat, hoff, by simpa using hb, hd⟩
      · cases h
    · cases h
  · cases h

/-- The register at an offset, if any, as pieces of state. -/
def regFields (p : Params) (off : Nat) (W : Reg → List Field) : List Field :=
  match regAt p off with
  | some r => W r
  | none => []

theorem regFields_some {p : Params} {off : Nat} {r : Reg} (h : regAt p off = some r) (W : Reg → List Field) :
    regFields p off W = W r := by
  simp [regFields, h]

theorem moved_show8 (r : Reg) (s : State) : Moved (readWrites r) s (show8 r s).2 := by
  cases r with
  | abort =>
    refine .update (by simp) (by simp) (by simp) (fun f hf => ?_) fun _ h => by simpa using h
    cases f with
    | reg r => cases r <;> simp_all [agree, show8, regValue, readWrites]
    | _ => simp_all [agree, readWrites]
  | _ => exact .refl _ s

theorem moved_show32 (r : Reg) (s : State) : Moved (readWrites r) s (show32 r s).2 := by
  cases r with
  | present | resp0 | resp1 | resp2 | resp3 | data =>
    refine .update (by simp) (by simp) (by simp) (fun f hf => ?_) fun _ h => by simpa using h
    cases f with
    | reg r => cases r <;> simp_all [agree, show32, regValue, readWrites]
    | _ => simp_all [agree, readWrites]
  | _ => exact .refl _ s

theorem moved_latch8 (r : Reg) (v : Byte) (s : State) :
    Moved [.reg r] s { s with win := latch8 r v s.win } := by
  refine .update rfl rfl rfl fun f hf => ?_
  cases f with
  | reg r' => cases r <;> cases r' <;> simp_all [agree, latch8, regValue]
  | _ => simp_all [agree]

theorem moved_latch32 (r : Reg) (v : Word) (s : State) :
    Moved [.reg r] s { s with win := latch32 r v s.win } := by
  refine .update rfl rfl rfl fun f hf => ?_
  cases f with
  | reg r' => cases r <;> cases r' <;> simp_all [agree, latch32, regValue]
  | _ => simp_all [agree]

theorem moved_latch16 (v : Half) (s : State) :
    Moved [.reg .blksize] s { s with win := { s.win with blksize := v } } := by
  refine .update rfl rfl rfl fun f hf => ?_
  cases f with
  | reg r' => cases r' <;> simp_all [agree, regValue]
  | _ => simp_all [agree]

/-- An event that accesses the register the check found is legal. -/
theorem legal_of_check {s : State} {off bytes : Nat} {allowed : Reg → Bool} {r : Reg}
    (h : check s off bytes allowed = some r) :
    allRegs.any (fun x => regOff s.params x == off && regBytes x == bytes && allowed x) = true := by
  obtain ⟨-, hoff, hb, hd⟩ := check_some h
  exact List.any_eq_true.2 ⟨r, mem_allRegs r, by simp [hoff, hb, hd]⟩

section
variable (off : Nat) (s : State)

/-- What an access at an offset writes beside the register there. -/
abbrev accessWrites (p : Params) (W : Reg → List Field) : List Field := [.fault, .trace] ++ regFields p off W

theorem read8_moves : (read8 off s).Moves (accessWrites off s.params readWrites) s := by
  unfold read8
  cases h : check s off 1 regReadable with
  | none => exact (raise_moves _ s).mono (by simp)
  | some r =>
    have hshow := (moved_show8 r s).mono (W' := accessWrites off s.params readWrites)
      (by simp [accessWrites, regFields_some (check_some h).1])
    have hrec : Moved (accessWrites off s.params readWrites) (show8 r s).2
        (record (.r8 off (show8 r s).1) (show8 r s).2) :=
      (moved_record (by simpa [legalEvent] using legal_of_check h)).mono (by simp [accessWrites])
    exact ⟨hshow.trans hrec, by simp⟩

theorem read32_moves : (read32 off s).Moves (accessWrites off s.params readWrites) s := by
  unfold read32
  cases h : check s off 4 regReadable with
  | none => exact (raise_moves _ s).mono (by simp)
  | some r =>
    have hshow := (moved_show32 r s).mono (W' := accessWrites off s.params readWrites)
      (by simp [accessWrites, regFields_some (check_some h).1])
    have hrec : Moved (accessWrites off s.params readWrites) (show32 r s).2
        (record (.r32 off (show32 r s).1) (show32 r s).2) :=
      (moved_record (by simpa [legalEvent] using legal_of_check h)).mono (by simp [accessWrites])
    exact ⟨hshow.trans hrec, by simp⟩

theorem write8_moves (v : Byte) :
    (write8 off v s).Moves (accessWrites off s.params fun r => [.reg r]) s := by
  unfold write8
  cases h : check s off 1 regWritable with
  | none => exact (raise_moves _ s).mono (by simp)
  | some r =>
    have hrec : Moved (accessWrites off s.params fun r => [.reg r]) s (record (.w8 off v) s) :=
      (moved_record (by simpa [legalEvent] using legal_of_check h)).mono (by simp [accessWrites])
    have hlatch := (moved_latch8 r v (record (.w8 off v) s)).mono
      (W' := accessWrites off s.params fun r => [.reg r])
      (by simp [accessWrites, regFields_some (check_some h).1])
    exact ⟨hrec.trans hlatch, rfl⟩

theorem write32_moves (v : Word) :
    (write32 off v s).Moves (accessWrites off s.params fun r => [.reg r]) s := by
  unfold write32
  cases h : check s off 4 regWritable with
  | none => exact (raise_moves _ s).mono (by simp)
  | some r =>
    have hrec : Moved (accessWrites off s.params fun r => [.reg r]) s (record (.w32 off v) s) :=
      (moved_record (by simpa [legalEvent] using legal_of_check h)).mono (by simp [accessWrites])
    have hlatch := (moved_latch32 r v (record (.w32 off v) s)).mono
      (W' := accessWrites off s.params fun r => [.reg r])
      (by simp [accessWrites, regFields_some (check_some h).1])
    exact ⟨hrec.trans hlatch, rfl⟩

/-- BLKSIZE is the one register of two bytes (R119). -/
theorem eq_blksize_of_regBytes {r : Reg} (h : regBytes r = 2) : r = .blksize := by
  cases r with
  | blksize => rfl
  | _ => cases h

theorem write16_moves (v : Half) :
    (write16 off v s).Moves (accessWrites off s.params fun r => [.reg r]) s := by
  unfold write16
  cases h : check s off 2 regWritable with
  | none => exact (raise_moves _ s).mono (by simp)
  | some r =>
    obtain ⟨hat, -, hb, -⟩ := check_some h
    have hrec : Moved (accessWrites off s.params fun r => [.reg r]) s (record (.w16 off v) s) :=
      (moved_record (by simpa [legalEvent] using legal_of_check h)).mono (by simp [accessWrites])
    have hlatch := (moved_latch16 v (record (.w16 off v) s)).mono
      (W' := accessWrites off s.params fun r => [.reg r])
      (by simp [accessWrites, regFields_some hat, eq_blksize_of_regBytes hb])
    exact ⟨hrec.trans hlatch, rfl⟩

end

/-! #### Accesses by name -/

section
variable (r : Reg) (s : State)

/-- Legal parameters put the register named at its own offset (R29). -/
theorem accessWrites_regOff {p : Params} (hp : paramsOk p = true) (W : Reg → List Field) :
    accessWrites (regOff p r) p W = [.fault, .trace] ++ W r := by
  rw [accessWrites, regFields_some (regAt_regOff hp r)]

theorem notifyQ_notMem_accessWrites {W : Reg → List Field} (hW : ∀ r, .notifyQ ∉ W r) (off : Nat) (p : Params) :
    .notifyQ ∉ accessWrites off p W := by
  unfold accessWrites regFields
  split <;> simp [hW]

theorem notifyQ_notMem_readWrites (r : Reg) : .notifyQ ∉ readWrites r := by cases r <;> decide

theorem readReg8_moves : (readReg8 r s).Moves ([.fault, .trace] ++ readWrites r) s :=
  (read8_moves _ s).reframe (notifyQ_notMem_accessWrites notifyQ_notMem_readWrites _ _)
    fun hp => accessWrites_regOff r hp _ ▸ read8_moves _ s

theorem readReg32_moves : (readReg32 r s).Moves ([.fault, .trace] ++ readWrites r) s :=
  (read32_moves _ s).reframe (notifyQ_notMem_accessWrites notifyQ_notMem_readWrites _ _)
    fun hp => accessWrites_regOff r hp _ ▸ read32_moves _ s

theorem writeReg8_moves (v : Byte) : (writeReg8 r v s).Moves ([.fault, .trace] ++ [.reg r]) s :=
  (write8_moves _ s v).reframe (notifyQ_notMem_accessWrites (by simp) _ _)
    fun hp => accessWrites_regOff r hp (fun r => [.reg r]) ▸ write8_moves _ s v

theorem writeReg32_moves (v : Word) : (writeReg32 r v s).Moves ([.fault, .trace] ++ [.reg r]) s :=
  (write32_moves _ s v).reframe (notifyQ_notMem_accessWrites (by simp) _ _)
    fun hp => accessWrites_regOff r hp (fun r => [.reg r]) ▸ write32_moves _ s v

theorem writeReg16_moves (v : Half) : (writeReg16 r v s).Moves ([.fault, .trace] ++ [.reg r]) s :=
  (write16_moves _ s v).reframe (notifyQ_notMem_accessWrites (by simp) _ _)
    fun hp => accessWrites_regOff r hp (fun r => [.reg r]) ▸ write16_moves _ s v

end

/-! ### The transfer port (spec/43_transfer_port.md) -/

section
variable (sg : List SgEntry) (s : State)

theorem addrAt_lt {p : Params} {sg : List SgEntry} {c : Cursor} {a : Nat} (h : addrAt p sg c = some a) :
    a < 2 ^ p.memAddrWidth := by
  obtain ⟨e, -, rfl⟩ := Option.map_eq_some_iff.1 h
  exact Nat.mod_lt _ (Nat.two_pow_pos _)

/-- cur_addr moves the cursor alone, and the address it gives lies in the address space (R64). -/
theorem curAddr_moves_bind {β : Type} {f : Nat → State → Res β} {W : List Field}
    (hW : [.fault, .trace, .cursor] ⊆ W)
    (hf : ∀ a t, a < 2 ^ t.params.memAddrWidth → (f a t).Moves W t) :
    ((curAddr sg s).bind f).Moves W s := by
  have hseek : Moved W s { s with cursor := seek sg s.cursor } :=
    (moved_cursor _ s).mono (List.Subset.trans (by simp) hW)
  simp only [curAddr]
  split
  case h_1 a ha => exact (hf a { s with cursor := seek sg s.cursor } (addrAt_lt ha)).after hseek rfl
  case h_2 =>
    have hraise : (raise .configSgShort { s with cursor := seek sg s.cursor } : Res β).Moves W _ :=
      (raise_moves _ _).mono (List.Subset.trans (by simp) hW)
    exact hraise.after hseek rfl

theorem moved_setCursor (W : List Field) (hW : .cursor ∈ W) (c : Cursor) : Moved W s { s with cursor := c } :=
  (moved_cursor c s).mono (by simpa using hW)

theorem refill_moves (acc : Word) (avail : Nat) : (refill acc avail s).Moves pioWrites s := by
  unfold refill
  split
  · exact ((readReg32_moves .data s).mono (by decide)).bind fun _ t => ok_moves _ (.refl _ t) rfl
  · exact ok_moves _ (.refl _ s) rfl

theorem readBytes_moves (n : Nat) (acc : Word) (avail : Nat) :
    (readBytes sg n acc avail s).Moves pioWrites s := by
  induction n generalizing acc avail s with
  | zero => exact done_moves _ s
  | succ n ih =>
    refine (refill_moves s acc avail).bind fun x t => ?_
    refine curAddr_moves_bind sg t (by decide) fun a u ha => ?_
    have hstore : Moved pioWrites u (memWrite a (byteOf x.1 0) u) := (moved_memWrite ha _).mono (by decide)
    exact (ih (bumpOff (memWrite a (byteOf x.1 0) u)) _ _).after
      (hstore.trans (moved_setCursor _ _ (by decide) _)) rfl

theorem readBlock_moves (n : Nat) : (readBlock sg n s).Moves pioWrites s :=
  (readBytes_moves sg s n 0 0).bind fun _ t => ok_moves _ (moved_setCursor t _ (by decide) _) rfl

/-- What a written block writes (R178). -/
abbrev writeBlockWrites : List Field := [.fault, .trace, .cursor, .reg .data]

theorem flushFull_moves (acc : Word) : (flushFull acc s).Moves writeBlockWrites s := by
  unfold flushFull
  split
  · exact ((writeReg32_moves .data s acc).mono (by decide)).bind fun _ t =>
      ok_moves _ (moved_setCursor t _ (by decide) _) rfl
  · exact ok_moves _ (.refl _ s) rfl

theorem writeBytes_moves (n : Nat) (acc : Word) : (writeBytes sg n acc s).Moves writeBlockWrites s := by
  induction n generalizing acc s with
  | zero => exact ok_moves _ (.refl _ s) rfl
  | succ n ih =>
    refine curAddr_moves_bind sg s (by decide) fun a t _ => ?_
    have hread : Moved writeBlockWrites t (memRead a t).2 := (moved_memRead a t).mono (by decide)
    have hheld : Moved writeBlockWrites t
        (setAccOff ((bumpOff (memRead a t).2).cursor.accOff + 1) (bumpOff (memRead a t).2)) :=
      hread.trans ((moved_setCursor _ _ (by decide) _).trans (moved_setCursor _ _ (by decide) _))
    exact ((flushFull_moves _ _).after hheld rfl).bind fun acc' u => ih u acc'

theorem writeBlock_moves (n : Nat) : (writeBlock sg n s).Moves writeBlockWrites s := by
  have hstart : Moved writeBlockWrites s (setAccOff 0 s) := moved_setCursor s _ (by decide) _
  refine ((writeBytes_moves sg _ n 0).after hstart rfl).bind fun acc t => ?_
  refine Res.Moves.bind ?_ fun _ u => ok_moves _ (moved_setCursor u _ (by decide) _) rfl
  split
  · exact (writeReg32_moves .data t acc).mono (by decide)
  · exact done_moves _ t

theorem moveBlock_moves (d : Data) : (moveBlock d s).Moves pioWrites s := by
  unfold moveBlock
  split
  · exact readBlock_moves _ s _
  · exact (writeBlock_moves _ s _).mono (by decide)

theorem transferPio_moves : (transferPio s).Moves pioWrites s := by
  unfold transferPio
  split
  · exact done_moves _ s
  · split
    · exact undefined_moves _ s _
    · exact (moveBlock_moves s _).bind fun _ t => ok_moves _ (moved_setCursor t _ (by decide) _) rfl

theorem readActiveBlock_moves : (readActiveBlock s).Moves pioWrites s := by
  unfold readActiveBlock
  split
  · exact undefined_moves _ s _
  · exact readBlock_moves _ s _

theorem writeActiveBlock_moves : (writeActiveBlock s).Moves writeBlockWrites s := by
  unfold writeActiveBlock
  split
  · exact undefined_moves _ s _
  · exact writeBlock_moves _ s _

end

/-! ### Prepare, issue, abort, finish (spec/41_command_engine.md, spec/42_data_session.md) -/

section
variable (s : State)

theorem triggerBlock_moves (size : Half) (dir : Dir) : (triggerBlock size dir s).Moves triggerWrites s :=
  ((writeReg16_moves .blksize s size).mono (by decide)).bind fun _ t =>
    (writeReg8_moves .dataCtrl t _).mono (by decide)

theorem moved_phaseAttached (d : Data) : Moved prepareWrites s (phaseAttached d s) :=
  .update rfl rfl rfl (fun f hf => by cases f <;> simp_all [agree, phaseAttached, prepareWrites]) fun _ h => by
    simpa [phaseAttached, updData] using h

theorem prepareData_moves : (prepareData s).Moves prepareWrites s := by
  cases hd : dataOf s with
  | none =>
    simp only [prepareData, hd]
    exact done_moves _ s
  | some d =>
    cases hf : prepareFault s.params d with
    | none =>
      rw [prepareData_triggers hd hf]
      exact ((triggerBlock_moves _ _ _).mono (by decide)).after (moved_phaseAttached s d) rfl
    | some f =>
      rw [prepareData_refused hd hf]
      exact (raise_moves _ s).mono (by decide)

theorem launch_moves (code : BitVec 3) : (launch code s).Moves [.fault, .trace, .reg .cmdCtrl] s := by
  unfold launch
  split
  · exact (raise_moves _ s).mono (by decide)
  · exact writeReg8_moves .cmdCtrl s _

theorem sendCommand_moves (c : Command) :
    (sendCommand c s).Moves [.fault, .trace, .reg .cmd, .reg .arg, .reg .cmdCtrl] s := by
  unfold sendCommand
  split
  · exact (raise_moves _ s).mono (by decide)
  · exact ((writeReg8_moves .cmd s _).mono (by decide)).bind fun _ t =>
      ((writeReg32_moves .arg t _).mono (by decide)).bind fun _ u => (launch_moves u _).mono (by decide)

theorem moved_slotTaken (r : Role) (c : Command) : Moved issueWrites s (slotTaken r c s) :=
  ((moved_curCmd _ s).mono (by decide)).trans ((moved_armTimer _ _).mono (by decide))

theorem issue_moves (r : Role) : (issue r s).Moves issueWrites s := by
  unfold issue
  split
  · exact undefined_moves _ s _
  · rename_i c _
    refine Res.Moves.bind ?_ fun _ t => (sendCommand_moves t c).mono (by decide)
    split
    · exact ((prepareData_moves _).mono (by decide)).after (moved_slotTaken s r c) rfl
    · exact ok_moves _ (moved_slotTaken s r c) rfl

theorem pollAbort_moves (flag : Byte) (n : Nat) : (pollAbort flag n s).Moves abortWrites s := by
  induction n generalizing s with
  | zero => exact ok_moves _ ((moved_logEvent _ s).mono (by decide)) rfl
  | succ n ih =>
    refine ((readReg8_moves .abort s).mono (by decide)).bind fun v t => ?_
    split
    · exact done_moves _ t
    · exact ih t

theorem abortSequence_moves (k : AbortKind) : (abortSequence k s).Moves abortWrites s :=
  ((writeReg8_moves .abort s _).mono (by decide)).bind fun _ t => pollAbort_moves t _ _

theorem abortBoth_moves : (abortBoth s).Moves abortWrites s :=
  (abortSequence_moves s .cmd).bind fun _ t => abortSequence_moves t .data

theorem moved_dataClosed (e : Err) : Moved finishWrites s (dataClosed e s) :=
  .update rfl rfl rfl
    (fun f hf => by cases f <;> simp_all [agree, dataClosed, finishWrites, issueWrites, prepareWrites]) fun _ h => by
    simpa [dataClosed, updData] using h

theorem finishData_moves (e : Err) : (finishData e s).Moves finishWrites s := by
  have hclosed := moved_dataClosed s e
  unfold finishData
  split
  · exact undefined_moves _ s _
  · split
    · exact undefined_moves _ s _
    · dsimp only
      split
      · refine Res.Moves.bind ?_ fun _ t => (issue_moves t .stop).mono (by decide)
        split
        · exact ok_moves _ hclosed rfl
        · exact ((abortBoth_moves _).mono (by decide)).after hclosed rfl
      · exact ok_moves _ (hclosed.trans ((moved_scheduleFinish _).mono (by decide))) rfl

/-! ### The two interrupts -/

theorem captureResponse_moves (r : Role) (c : Command) : (captureResponse r c s).Moves finishCmdWrites s := by
  have hstored : ∀ (g : Command → Command) (t : State), (done (updCmd r g t)).Moves finishCmdWrites t :=
    fun g t => ok_moves _ ((moved_updCmd r g t).mono (by decide)) rfl
  simp only [captureResponse]
  split
  · exact undefined_moves _ s _
  · exact done_moves _ s
  · exact ((readReg32_moves .resp0 s).mono (by decide)).bind fun _ s0 =>
      ((readReg32_moves .resp1 s0).mono (by decide)).bind fun _ s1 =>
      ((readReg32_moves .resp2 s1).mono (by decide)).bind fun _ s2 =>
      ((readReg32_moves .resp3 s2).mono (by decide)).bind fun _ s3 => hstored _ s3
  · exact ((readReg32_moves .resp0 s).mono (by decide)).bind fun _ t => hstored _ t

theorem afterCommand_moves (r : Role) : (afterCommand r s).Moves finishCmdWrites s := by
  unfold afterCommand
  split
  · exact (issue_moves s .primary).mono (by decide)
  · split
    · exact ok_moves _ ((moved_scheduleFinish s).mono (by decide)) rfl
    · split
      · split
        · exact undefined_moves _ s _
        · exact (finishData_moves s _).mono (by decide)
      · exact done_moves _ s

theorem moved_slotEmptied (r : Role) (g : Command → Command) :
    Moved finishCmdWrites s { updCmd r g s with curCmd := none } :=
  ((moved_updCmd r g s).mono (by decide)).trans ((moved_curCmd none _).mono (by decide))

theorem finishCommand_moves : (finishCommand s).Moves finishCmdWrites s := by
  unfold finishCommand
  split
  · exact undefined_moves _ s _
  · split
    · exact undefined_moves _ s _
    · exact (captureResponse_moves s _ _).bind fun _ t =>
        (afterCommand_moves _ _).after (moved_slotEmptied t _ _) rfl

theorem moved_busyLogged (c : Command) : Moved [.trace] s (busyLogged c s) := by
  unfold busyLogged
  split
  · exact moved_logEvent _ s
  · exact .refl _ s

/-- An error recorded on a command and the request-finish work scheduled (R137, R159). -/
theorem moved_commandFailed (r : Role) (e : Err) :
    Moved [.req, .finishPend] s (scheduleWork .finish (updCmd r (fun x => { x with error := e }) s)) :=
  ((moved_updCmd r _ s).mono (by decide)).trans ((moved_scheduleFinish _).mono (by decide))

theorem onCommandInterrupt_moves (mask : Word) : (onCommandInterrupt mask s).Moves finishCmdWrites s := by
  unfold onCommandInterrupt
  split
  · exact ok_moves _ ((moved_logEvent _ s).mono (by decide)) rfl
  · split
    · exact undefined_moves _ s _
    · rename_i c _
      have hlogged : Moved finishCmdWrites s (busyLogged c s) := (moved_busyLogged s c).mono (by decide)
      dsimp only
      split
      · exact ok_moves _ ((moved_commandFailed s _ _).mono (by decide)) rfl
      · split
        · exact (finishCommand_moves _).after hlogged (busyLogged_fault c s)
        · exact ok_moves _ hlogged (busyLogged_fault c s)

theorem forceTimeout_moves (r : Role) : (forceTimeout r s).Moves [.req, .finishPend] s := by
  unfold forceTimeout
  split
  · exact undefined_moves _ s _
  · exact ok_moves _ (moved_commandFailed s _ _) rfl

theorem onDataNoPhase_moves (mask : Word) : (onDataNoPhase mask s).Moves finishCmdWrites s := by
  have hlogged : Moved finishCmdWrites s (logEvent .spuriousData s) := (moved_logEvent _ s).mono (by decide)
  unfold onDataNoPhase
  split
  · exact finishCommand_moves s
  · dsimp only
    split
    · exact ok_moves _ hlogged rfl
    · split
      · exact ((forceTimeout_moves _ _).mono (by decide)).after hlogged rfl
      · exact ok_moves _ hlogged rfl

theorem onTransferComplete_moves (d : Data) : (onTransferComplete d s).Moves finishWrites s := by
  unfold onTransferComplete
  split
  · exact ok_moves _ ((moved_dataEarly true s).mono (by decide)) rfl
  · split
    · exact (triggerBlock_moves s _ _).mono (by decide)
    · exact finishData_moves s .ok

theorem onDataInterrupt_moves (mask : Word) : (onDataInterrupt mask s).Moves dataIrqWrites s := by
  unfold onDataInterrupt
  split
  · exact (onDataNoPhase_moves s mask).mono (by decide)
  · split
    · exact undefined_moves _ s _
    · dsimp only
      split
      · exact (finishData_moves s _).mono (by decide)
      · refine Res.Moves.bind ?_ fun _ t => ?_
        · split
          · exact (transferPio_moves s).mono (by decide)
          · exact done_moves _ s
        · split
          · exact (onTransferComplete_moves t _).mono (by decide)
          · exact done_moves _ t

end

/-! ### The dispatcher (spec/44_dispatcher.md) -/

section
variable (s : State)

theorem acknowledge_moves (bits : Word) {W : List Field} {handler : State → Res Unit}
    (hW : [.fault, .trace, .reg .intStatus] ⊆ W) (hh : ∀ t, (handler t).Moves W t) :
    (acknowledge bits handler s).Moves W s := by
  unfold acknowledge
  split
  · exact done_moves _ s
  · exact ((writeReg32_moves .intStatus s bits).mono hW).bind fun _ t => hh t

theorem moved_logRemaining (m : Word) : (logRemaining m s).Moves [.trace] s := by
  have hlog : ∀ (b : Bool) (k : LogKind) (t : State), Moved [.trace] t (if b = true then logEvent k t else t) := by
    intro b k t
    split
    · exact moved_logEvent k t
    · exact .refl _ t
  have hfault : ∀ (b : Bool) (k : LogKind) (t : State), (if b = true then logEvent k t else t).fault = t.fault := by
    intro b k t
    split <;> rfl
  exact ok_moves _ ((hlog _ _ s).trans (hlog _ _ _)) ((hfault _ _ _).trans (hfault _ _ s))

/-- What the card and command categories of a dispatch write (R190). -/
abbrev dispatchFrontWrites : List Field := finishCmdWrites ++ [.reg .intStatus, .cardPend]

theorem dispatchFront_moves (st : Word) : (dispatchFront st s).Moves dispatchFrontWrites s :=
  (acknowledge_moves s _ (by decide) fun t =>
    ok_moves _ ((moved_scheduleCard t).mono (by decide)) rfl).bind fun _ t =>
  acknowledge_moves t _ (by decide) fun u => (onCommandInterrupt_moves u _).mono (by decide)

theorem dispatchBack_moves (st : Word) : (dispatchBack st s).Moves dispatchWrites s :=
  (acknowledge_moves s _ (by decide) fun t => (onDataInterrupt_moves t _).mono (by decide)).bind fun _ t =>
  acknowledge_moves t _ (by decide) fun u => (moved_logRemaining u _).mono (by decide)

theorem dispatch_moves : (dispatch s).Moves dispatchWrites s := by
  refine ((readReg32_moves .intStatus s).mono (by decide)).bind fun st t => ?_
  split
  · exact done_moves _ t
  · exact ((dispatchFront_moves t st).mono (by decide)).bind fun _ u => dispatchBack_moves u st

/-! ### Completion, watchdog, issuer, platform (spec/45_completion_watchdog.md, spec/46_issuer_platform.md) -/

/-- What WORK_FINISH writes (R205). -/
abbrev workFinishWrites : List Field := abortWrites ++ [.finishPend, .timer, .req, .curCmd, .curData,
  .dataEarly, .cursor, .notifyQ, .dutyBroken, .breaches]

theorem requestFinish_moves : (requestFinish s).Moves workFinishWrites s := by
  have hcleared : Moved workFinishWrites s { s with finishPend := false } :=
    .update rfl rfl rfl fun f hf => by cases f <;> simp_all [agree]
  have hdetached : ∀ (q : Request) (t : State), Moved workFinishWrites t (detachRequest q t) := fun q t =>
    .update rfl rfl rfl (fun f hf => by cases f <;> simp_all [agree, detachRequest]) fun hW => absurd (by decide) hW
  simp only [requestFinish]
  split
  · exact ok_moves _ hcleared rfl
  · refine Res.Moves.bind ?_ fun _ t => ok_moves _ (hdetached _ t) rfl
    have hcancelled : Moved workFinishWrites s (cancelTimer { s with finishPend := false }) :=
      hcleared.trans ((moved_cancelTimer _).mono (by decide))
    split
    · exact ((abortBoth_moves _).mono (by decide)).after hcancelled rfl
    · exact ok_moves _ hcancelled rfl

theorem watchdogFire_moves : (watchdogFire s).Moves finishWrites s := by
  have hfired : Moved finishWrites s { s with timer := none } := (moved_timerOff s).mono (by decide)
  simp only [watchdogFire]
  split
  · exact ok_moves _ hfired rfl
  · split
    · exact (finishData_moves _ _).after hfired rfl
    · exact ((forceTimeout_moves _ _).mono (by decide)).after hfired rfl

theorem deliver_moves : (deliver s).Moves [.trace, .notifyQ] s := by
  unfold deliver
  split
  · exact done_moves _ s
  · rename_i r rest _
    have htaken : Moved [.trace, .notifyQ] s { s with notifyQ := rest } :=
      .update rfl rfl rfl fun f hf => by cases f <;> simp_all [agree]
    exact ok_moves _ (htaken.trans (moved_record_in (by decide) rfl fun _ => by decide)) rfl

/-- What ATTACH writes (R234, R280). -/
abbrev attachWrites : List Field := [.fault, .trace, .attached, .req, .curCmd, .curData, .dataEarly, .cursor,
  .timer, .finishPend, .cardPend, .notifyQ, .dutyBroken, .reg .intEnable]

theorem attachWindow_moves : (attachWindow s).Moves attachWrites s := by
  have hreset : Moved attachWrites s { resetEngine s with attached := true } :=
    .update rfl rfl rfl (fun f hf => by cases f <;> simp_all [agree, resetEngine]) fun hW => absurd (by decide) hW
  exact ((writeReg32_moves .intEnable _ _).mono (by decide)).after hreset rfl

/-- What DETACH writes (R235). -/
abbrev detachWrites : List Field := [.fault, .trace, .attached, .reg .intEnable]

theorem detachWindow_moves : (detachWindow s).Moves detachWrites s := by
  refine ((writeReg32_moves .intEnable s 0).mono (by decide)).bind fun _ t => ok_moves _ ?_ rfl
  exact .update rfl rfl rfl fun f hf => by cases f <;> simp_all [agree]

theorem setPowerMode_moves (mode : PowerMode) :
    (setPowerMode mode s).Moves [.fault, .trace, .power, .reg .power] s := by
  have hmode : Moved [.fault, .trace, .power, .reg .power] s { s with power := mode } :=
    .update rfl rfl rfl fun f hf => by cases f <;> simp_all [agree]
  exact ((writeReg8_moves .power _ _).mono (by decide)).after hmode rfl

theorem takeSlot_moves (r : Role) : (takeSlot r s).Moves [.curCmd] s := by
  unfold takeSlot
  split
  · exact undefined_moves _ s _
  · exact ok_moves _ (moved_curCmd _ s) rfl

/-- What SUBMIT writes (R230). -/
abbrev submitWrites : List Field := issueWrites ++ readWrites .present ++ [.finishPend, .dutyBroken]

theorem startRequest_moves (r : Request) : (startRequest r s).Moves submitWrites s := by
  have haccepted : Moved submitWrites s { s with
      req := some (Request.withRoles r)
      dutyBroken := !Request.dutiesKept (Request.withRoles r) } :=
    .update rfl rfl rfl (fun f hf => by
      cases f <;> simp_all [agree, submitWrites, issueWrites, prepareWrites]) fun _ _ => rfl
  refine (((readReg32_moves .present _).mono (by decide)).after haccepted rfl).bind fun p t => ?_
  split
  · exact ok_moves _ ((moved_commandFailed t _ _).mono (by decide)) rfl
  · split
    · exact (issue_moves t .sbc).mono (by decide)
    · exact (issue_moves t .primary).mono (by decide)

theorem submitRequest_moves (r : Request) : (submitRequest r s).Moves submitWrites s := by
  unfold submitRequest
  split
  · exact (raise_moves _ s).mono (by decide)
  · split
    · exact (raise_moves _ s).mono (by decide)
    · split
      · exact (raise_moves _ s).mono (by decide)
      · exact startRequest_moves s r

end

/-! ### Every step -/

theorem moved_scheduleWork (w : WorkUnit) (s : State) :
    Moved (mayWrite s.params (.schedule w)) s (scheduleWork w s) := by
  cases w
  · exact moved_scheduleFinish s
  · exact moved_scheduleCard s

theorem mayWrite_raised {p : Params} {i : Instr} {w : Word} (h : raisedWord p i = some w)
    (hi : i ≠ .spuriousAllOnes) : mayWrite p i = dispatchWrites := by
  cases i <;> cases h
  case spuriousAllOnes => exact absurd rfl hi
  all_goals rfl

/-- A dispatch that reads a spurious word only records the read (R192). -/
theorem dispatch_spurious_moves {s : State} (ha : s.attached = true) (hp : paramsOk s.params = true)
    (hw : spuriousWord s.win.intStatus = true) : (dispatch s).Moves [.trace] s := by
  have hlegal : legalEvent s.params (.r32 s.params.offIntStatus s.win.intStatus) = true :=
    legal_of_check (check_regOff hp ha .intStatus rfl rfl)
  rw [dispatch, readReg32_ok hp ha .intStatus rfl rfl]
  simp only [show32, Res.bind_ok, hw, if_true]
  exact ok_moves _ (moved_record hlegal) rfl

theorem spuriousZero_moves {s : State} (he : enabled .spuriousZero s = true) :
    (dispatch s).Moves [.trace] s := by
  obtain ⟨ha, h0⟩ := Bool.and_eq_true_iff.1 he
  have hw : spuriousWord s.win.intStatus = true := Bool.or_eq_true_iff.2 (.inl h0)
  exact (dispatch_moves s).reframe (by decide) fun hp => dispatch_spurious_moves ha hp hw

theorem spuriousAllOnes_moves {s : State} (ha : s.attached = true) :
    (dispatch (envRaise (BitVec.allOnes 32) s)).Moves [.trace, .reg .intStatus] s := by
  have hraised : Moved [.trace, .reg .intStatus] s (envRaise (BitVec.allOnes 32) s) :=
    (moved_envRaise _ s).mono (by decide)
  have hw : spuriousWord (envRaise (BitVec.allOnes 32) s).win.intStatus = true :=
    Bool.or_eq_true_iff.2 (.inr (beq_iff_eq.2 BitVec.or_allOnes))
  have hdispatch : (dispatch (envRaise (BitVec.allOnes 32) s)).Moves [.trace, .reg .intStatus]
      (envRaise (BitVec.allOnes 32) s) :=
    (dispatch_moves _).reframe (by decide) fun hp =>
      (dispatch_spurious_moves (s := envRaise (BitVec.allOnes 32) s) ha hp hw).mono (by decide)
  exact hdispatch.after hraised rfl

/-- Every enabled step moves within the pieces of state listed for it. -/
theorem rule_moves {i : Instr} {s : State} (he : enabled i s = true) :
    (rule i s).Moves (mayWrite s.params i) s := by
  cases hw : raisedWord s.params i with
  | some w =>
    rw [rule_raised hw]
    by_cases hi : i = .spuriousAllOnes
    · subst hi
      cases hw
      exact spuriousAllOnes_moves he
    · rw [mayWrite_raised hw hi]
      exact (dispatch_moves _).after ((moved_envRaise w s).mono (by decide)) rfl
  | none =>
    cases i with
    | stCmdComplete | stXferComplete | stSpaceAvail | stDataAvail | stCardInsert | stCardRemove | stCardInt
    | stCmdTimeout | stCmdCrc | stCmdEndBit | stCmdIndex | stDataTimeout | stDataCrc | stDataEndBit
    | stUnclassified | spuriousAllOnes => cases hw
    | spuriousZero => exact spuriousZero_moves he
    | attach => exact attachWindow_moves s
    | detach => exact detachWindow_moves s
    | submit r => exact submitRequest_moves s r
    | irq => exact dispatch_moves s
    | wdog => exact watchdogFire_moves s
    | workFinish => exact requestFinish_moves s
    | workCard =>
      have hcleared : Moved [.trace, .cardPend] s { s with cardPend := false } :=
        .update rfl rfl rfl fun f hf => by cases f <;> simp_all [agree]
      exact ok_moves _ (hcleared.trans ((moved_record rfl).mono (by decide))) rfl
    | notify => exact deliver_moves s
    | setPower | powerOff | powerUp | powerOn => exact setPowerMode_moves s _
    | envRaise m => exact ok_moves _ (moved_envRaise m s) rfl
    | envCard b => exact ok_moves _ (moved_envCard b s) rfl
    | issue r => exact issue_moves s r
    | arm n => exact ok_moves _ (moved_armTimer n s) rfl
    | cancel => exact ok_moves _ (moved_cancelTimer s) rfl
    | cmdIrq mask => exact onCommandInterrupt_moves s mask
    | finishCmd => exact finishCommand_moves s
    | prepare => exact prepareData_moves s
    | triggerBlock size dir => exact triggerBlock_moves s size dir
    | dataIrq mask => exact onDataInterrupt_moves s mask
    | pio => exact transferPio_moves s
    | pioReadBlock => exact readActiveBlock_moves s
    | pioWriteBlock => exact writeActiveBlock_moves s
    | finishData e => exact finishData_moves s e
    | abortSeq | abortCmd | abortData => exact abortSequence_moves s _
    | schedule w => exact ok_moves _ (moved_scheduleWork w s) (by cases w <;> rfl)
    | log k => exact ok_moves _ (moved_logEvent k s) rfl
    | read8 off => exact (read8_moves off.toNat s).bind fun _ t => done_moves _ t
    | read32 off => exact (read32_moves off.toNat s).bind fun _ t => done_moves _ t
    | write8 off v => exact write8_moves off.toNat s v
    | write32 off v => exact write32_moves off.toNat s v
    | write16 off v => exact write16_moves off.toNat s v
    | cmdbyte | rspctlNone | rspctlShort | rspctlShortbusy | rspctlLong | rspctlR3 | datactlRead
    | datactlWrite | dirRead | dirWrite => exact writeReg8_moves _ s _
    | argword => exact writeReg32_moves _ s _
    | blksz16 => exact writeReg16_moves _ s _
    | shapeNone => exact launch_moves s (Shape.code .noResponse)
    | shapeShort => exact launch_moves s (Shape.code .short)
    | shapeShortbusy => exact launch_moves s (Shape.code .shortBusy)
    | shapeLong => exact launch_moves s (Shape.code .long)
    | shapeR3 => exact launch_moves s (Shape.code .r3)
    | shapeInvalid code => exact launch_moves s code
    | roleSbc | rolePrimary | roleStop => exact takeSlot_moves s _
    | opInvalid => exact nofun

/-- What a step that answers a next state may have done, and the fault it ended with, if any. -/
theorem exec_moved {i : Instr} {s t : State} (h : exec i s = .next t) :
    Moved (mayWrite s.params i) s t ∧ ∀ r, t.fault = some r → t.trace.getLast? = some (.fault r) := by
  obtain ⟨hf, he, hrule⟩ := exec_next h
  have hmoves := rule_moves he
  cases hx : rule i s with
  | ok a u =>
    rw [hx] at hrule hmoves
    cases hrule
    exact ⟨hmoves.1, fun r hr => nomatch (hmoves.2.trans hf).symm.trans hr⟩
  | raised u =>
    rw [hx] at hrule hmoves
    cases hrule
    obtain ⟨hmoved, r, hfault, hlast⟩ := hmoves
    refine ⟨hmoved, fun r' hr' => ?_⟩
    cases hfault.symm.trans hr'
    exact hlast
  | stuck r =>
    rw [hx] at hrule
    cases hrule

/-- Settles O13: the frame of every step's moves. -/
theorem frame : Obligations.Frame := by
  unfold Obligations.Frame
  intro i s t hp h
  exact (exec_moved h).1.frame hp

/-- Settles O15: every step's moves keep the parameters and add legal events to the trace. -/
theorem legalAccessesOnly : Obligations.LegalAccessesOnly := by
  unfold Obligations.LegalAccessesOnly
  intro i s t h
  obtain ⟨es, hes, hlegal, -⟩ := (exec_moved h).1.trace
  exact ⟨(exec_moved h).1.params, es, hes, hlegal⟩

/-- Settles O10: every step's moves keep memory's form, and so does a turn in which nothing runs. -/
theorem stepKeepsMemory : Obligations.StepKeepsMemory := by
  unfold Obligations.StepKeepsMemory
  intro s t hm h
  obtain ⟨e, rest, i, -, -, hexec⟩ | ⟨-, rfl | ⟨i, -, hexec⟩⟩ := step_next h
  · exact (exec_moved hexec).1.memory hm
  · exact hm
  · exact (exec_moved hexec).1.memory hm

theorem step_ne_next_of_fault {s : State} {r : FaultReason} (h : s.fault = some r) (t : State) :
    step s ≠ .next t := by
  intro hstep
  obtain ⟨e, rest, i, -, -, hexec⟩ | ⟨ha, -⟩ := step_next hstep
  · exact nomatch (fault_none_of_exec_next hexec).symm.trans h
  · have hturn : ({ s with turns := s.turns + 1 } : State).fault = some r := h
    rw [step_offer ha] at hstep
    cases hi : (Config.freeStep s.turns).topLevel with
    | false =>
      rw [runOffer_inner hi] at hstep
      exact nomatch (whenLive_next hstep).1.symm.trans hturn
    | true =>
      have hhalted := exec_halted hturn (Config.freeStep s.turns)
      rw [runOffer_exec hi fun m hm => nomatch hhalted.symm.trans hm] at hstep
      exact nomatch hhalted.symm.trans hstep

/-- Settles O6: a halted state answers its fault, and a step's raise ends the trace. -/
theorem faultEndsEverything : Obligations.FaultEndsEverything := by
  unfold Obligations.FaultEndsEverything
  exact ⟨fun i s r h => exec_halted h i, fun s r h => step_ne_next_of_fault h,
    fun i s t h => ⟨fault_none_of_exec_next h, (exec_moved h).2⟩⟩

/-- Settles O7: a step not enabled is refused so; an enabled one runs its rule, which never refuses so. -/
theorem enabledExactly : Obligations.EnabledExactly := by
  unfold Obligations.EnabledExactly
  intro i s hf
  refine ⟨exec_notEnabled hf, fun ⟨m, hm⟩ => ?_⟩
  by_contra he
  rw [Bool.not_eq_false] at he
  have hmoves := rule_moves he
  rw [exec_enabled hf he] at hm
  cases hx : rule i s with
  | ok a u => rw [hx] at hm; cases hm
  | raised u => rw [hx] at hm; cases hm
  | stuck r =>
    rw [hx] at hm hmoves
    cases hm
    exact hmoves m rfl

end Sys2Proof.Machine

/-! Where a step stores to issuer memory (R59, R63, R177): a read block at its own addresses and nothing else
anywhere, and the proof of MemoryFrame. -/

namespace Sys2Proof.Machine

/-- Every byte outside these addresses reads as before. -/
def SameOutside (A : List Nat) (s t : State) : Prop :=
  ∀ a ∉ A, Memory.read t.mem a = Memory.read s.mem a

/-- The operation, run from s, stores to these addresses at most, where it goes on and where it raised. -/
def Res.StoresIn {α : Type} (A : List Nat) (x : Res α) (s : State) : Prop :=
  x.Ends (fun _ t => SameOutside A s t) (SameOutside A s)

section
variable {α β : Type} {A : List Nat} {s t : State}

theorem SameOutside.of_mem_eq (h : t.mem = s.mem) : SameOutside A s t := fun _ _ => by rw [h]

theorem SameOutside.trans {u : State} (h : SameOutside A s t) (h' : SameOutside A t u) : SameOutside A s u :=
  fun a ha => (h' a ha).trans (h a ha)

theorem Res.StoresIn.after {x : Res α} (hx : x.StoresIn A t) (h : SameOutside A s t) : x.StoresIn A s :=
  Res.Ends.mono hx (fun _ _ hu => h.trans hu) fun _ hu => h.trans hu

theorem Res.StoresIn.bind {x : Res α} {f : α → State → Res β} (hx : x.StoresIn A s)
    (hf : ∀ a t, x = .ok a t → (f a t).StoresIn A t) : (x.bind f).StoresIn A s := by
  cases x with
  | ok a t => exact (hf a t rfl).after hx
  | raised t => exact hx
  | stuck r => trivial

/-- A rule that does not write memory stores nowhere. -/
theorem Res.Moves.storesIn {W : List Field} {x : Res α} (h : x.Moves W s) (hp : paramsOk s.params = true)
    (hW : Field.mem ∉ W) : x.StoresIn A s := by
  cases x with
  | ok a t => exact fun a _ => h.1.frame hp .mem hW a
  | raised t => exact fun a _ => h.1.frame hp .mem hW a
  | stuck r => trivial

theorem Res.Moves.params_of_ok {W : List Field} {x : Res α} (h : x.Moves W s) {a : α} (hx : x = .ok a t) :
    t.params = s.params := by
  subst hx
  exact h.1.params

end

/-! ### The block a read stores (R177, R179) -/

/-- The addresses left to store once a byte was stored at the first. -/
theorem blockAddrs_succ {p : Params} {sg : List SgEntry} {c : Cursor} {a : Nat}
    (h : addrAt p sg (seek sg c) = some a) (n : Nat) :
    blockAddrs p sg (n + 1) c = a :: blockAddrs p sg n { seek sg c with sgOff := (seek sg c).sgOff + 1 } := by
  simp [blockAddrs, h]

theorem sameOutside_memWrite {A : List Nat} {a : Nat} (ha : a ∈ A) (v : Byte) (s : State) :
    SameOutside A s (memWrite a v s) := fun _ hx =>
  Memory.read_write_other v fun h => hx (h ▸ ha)

theorem readBytes_storesIn (sg : List SgEntry) {A : List Nat} (n : Nat) (acc : Word) (avail : Nat) (s : State)
    (hp : paramsOk s.params = true) (hA : blockAddrs s.params sg n s.cursor ⊆ A) :
    (readBytes sg n acc avail s).StoresIn A s := by
  induction n generalizing acc avail s with
  | zero => exact SameOutside.of_mem_eq rfl
  | succ n ih =>
    have hrefill : (refill acc avail s).Moves [.fault, .trace, .reg .data, .answers, .draws] s := by
      unfold refill
      split
      · exact ((readReg32_moves .data s).mono (by decide)).bind fun _ t => ok_moves _ (.refl _ t) rfl
      · exact ok_moves _ (.refl _ s) rfl
    refine (hrefill.storesIn hp (by decide)).bind fun x t hx => ?_
    rw [hx] at hrefill
    have hparams : t.params = s.params := hrefill.1.params
    have hcursor : t.cursor = s.cursor := hrefill.1.frame hp .cursor (by decide)
    simp only [curAddr]
    cases ha : addrAt t.params sg (seek sg t.cursor) with
    | none => exact SameOutside.of_mem_eq rfl
    | some a =>
      rw [← hparams, ← hcursor, blockAddrs_succ ha, List.cons_subset] at hA
      refine (ih _ _ _ (hparams ▸ hp) hA.2).after ?_
      exact sameOutside_memWrite hA.1 _ { t with cursor := seek sg t.cursor }

theorem readBlock_storesIn (sg : List SgEntry) (n : Nat) {s : State} (hp : paramsOk s.params = true) :
    (readBlock sg n s).StoresIn (blockAddrs s.params sg n s.cursor) s :=
  (readBytes_storesIn sg n 0 0 s hp (List.Subset.refl _)).bind fun _ _ _ => SameOutside.of_mem_eq rfl

theorem transferPio_storesIn {s : State} (hp : paramsOk s.params = true) :
    (transferPio s).StoresIn (pioStores s) s := by
  unfold transferPio pioStores
  split
  · exact SameOutside.of_mem_eq rfl
  · cases hd : dataOf s with
    | none => trivial
    | some d =>
      refine Res.StoresIn.bind ?_ fun _ _ _ => SameOutside.of_mem_eq rfl
      unfold moveBlock
      dsimp only
      cases d.dir with
      | read => exact readBlock_storesIn d.sg d.blksz hp
      | write => exact (writeBlock_moves d.sg s d.blksz).storesIn hp (by decide)

theorem storedAt_pioReadBlock {s : State} {d : Data} (h : dataOf s = some d) :
    storedAt .pioReadBlock s = blockAddrs s.params d.sg d.blksz s.cursor := by
  show (match dataOf s with
    | some d => blockAddrs s.params d.sg d.blksz s.cursor
    | none => []) = _
  simp only [h]

theorem readActiveBlock_storesIn {s : State} (hp : paramsOk s.params = true) :
    (readActiveBlock s).StoresIn (storedAt .pioReadBlock s) s := by
  unfold readActiveBlock
  cases hd : dataOf s with
  | none => trivial
  | some d =>
    rw [storedAt_pioReadBlock hd]
    exact readBlock_storesIn d.sg d.blksz hp

/-! ### The data interrupt and the dispatch (R156, R190, R195) -/

theorem onDataInterrupt_storesIn (mask : Word) {s : State} (hp : paramsOk s.params = true) :
    (onDataInterrupt mask s).StoresIn (dataIrqStores mask s) s := by
  unfold onDataInterrupt
  split
  · exact (onDataNoPhase_moves s mask).storesIn hp (by decide)
  · rename_i hcur
    cases hd : dataOf s with
    | none => trivial
    | some d =>
      dsimp only
      split
      · exact (finishData_moves s _).storesIn hp (by decide)
      · rename_i he
        refine Res.StoresIn.bind ?_ fun _ t ht => ?_
        · split
          · rename_i hmoves
            have hstores : dataIrqStores mask s = pioStores s := by
              simp_all [dataIrqStores]
            rw [hstores]
            exact transferPio_storesIn hp
          · exact SameOutside.of_mem_eq rfl
        · have hparams : t.params = s.params := by
            split at ht
            · exact (transferPio_moves s).params_of_ok ht
            · exact (done_moves [] s).params_of_ok ht
          split
          · exact (onTransferComplete_moves t d).storesIn (hparams ▸ hp) (by decide)
          · exact SameOutside.of_mem_eq rfl

theorem dispatchBack_storesIn (st : Word) {s : State} (ha : s.attached = true) (hp : paramsOk s.params = true) :
    (dispatchBack st s).StoresIn (dataIrqStores (dataPart s.params st) { s with
      win := { s.win with intStatus := s.win.intStatus &&& ~~~dataPart s.params st } }) s := by
  have hmoves := acknowledge_moves s (dataPart s.params st) (W := dispatchWrites)
    (handler := onDataInterrupt (dataPart s.params st)) (by decide)
    fun t => (onDataInterrupt_moves t _).mono (by decide)
  refine Res.StoresIn.bind ?_ fun _ t ht => ?_
  · unfold acknowledge
    split
    · exact SameOutside.of_mem_eq rfl
    · rw [writeIntStatus_ok hp ha, Res.bind_done]
      exact (onDataInterrupt_storesIn _ (s := acknowledged (dataPart s.params st) s) hp).after
        (SameOutside.of_mem_eq rfl)
  · have hparams : paramsOk t.params = true := hmoves.params_of_ok ht ▸ hp
    exact (acknowledge_moves t _ (W := [.fault, .trace, .reg .intStatus]) (List.Subset.refl _)
      fun u => (moved_logRemaining u _).mono (by decide)).storesIn hparams (by decide)

section
variable {s : State} (hw : spuriousWord s.win.intStatus = false)
include hw

theorem irqStores_eq {t : State} (h : dispatchFront s.win.intStatus (statusRead s) = .ok () t) :
    irqStores s = dataIrqStores (dataPart t.params s.win.intStatus) { t with
      win := { t.win with intStatus := t.win.intStatus &&& ~~~dataPart t.params s.win.intStatus } } := by
  have hfront : dispatchFront s.win.intStatus
      (record (.r32 s.params.offIntStatus s.win.intStatus) s) = .ok () t := h
  simp [irqStores, hw, hfront]

theorem dispatchWord_storesIn (ha : s.attached = true) (hp : paramsOk s.params = true) :
    (dispatchWord s.win.intStatus (statusRead s)).StoresIn (irqStores s) (statusRead s) := by
  have hfront := dispatchFront_moves (statusRead s) s.win.intStatus
  refine (hfront.storesIn hp (by decide)).bind fun _ t ht => ?_
  rw [ht] at hfront
  rw [irqStores_eq hw ht]
  exact dispatchBack_storesIn _ ((hfront.1.frame hp .attached (by decide)).trans ha)
    (hfront.1.params ▸ hp)

end

theorem dispatch_storesIn {s : State} (ha : s.attached = true) (hp : paramsOk s.params = true) :
    (dispatch s).StoresIn (irqStores s) s := by
  have hread : SameOutside (irqStores s) s (statusRead s) := .of_mem_eq rfl
  rw [dispatch, readReg32_ok hp ha .intStatus rfl rfl]
  simp only [show32, Res.bind_ok]
  split
  · exact hread
  · rename_i hw
    exact (dispatchWord_storesIn (Bool.eq_false_iff.2 hw) ha hp).after hread

/-! ### Every step -/

theorem storedAt_raised {i : Instr} {s : State} {w : Word} (h : raisedWord s.params i = some w) :
    storedAt i s = irqStores (envRaise w s) := by
  cases i <;> cases h <;> rfl

/-- A register accessor writes no memory, whatever register its offset names. -/
theorem mem_notMem_readField (p : Params) (off : Word) : Field.mem ∉ readField p off := by
  unfold readField readWrites
  split
  · split <;> simp
  · simp

theorem mem_notMem_regField (p : Params) (off : Word) : Field.mem ∉ regField p off := by
  unfold regField
  split <;> simp

theorem mem_notMem_access {W : List Field} (h : Field.mem ∉ W) :
    Field.mem ∉ [Field.fault, Field.trace] ++ W := by
  simpa using h

theorem rule_storesIn {i : Instr} {s : State} (he : enabled i s = true) (hp : paramsOk s.params = true) :
    (rule i s).StoresIn (storedAt i s) s := by
  cases hw : raisedWord s.params i with
  | some w =>
    have ha : s.attached = true := (enabled_raised hw).symm.trans he
    rw [rule_raised hw, storedAt_raised hw]
    exact (dispatch_storesIn (s := envRaise w s) ha hp).after (.of_mem_eq rfl)
  | none =>
    have hmoves := rule_moves he
    cases i with
    | stCmdComplete | stXferComplete | stSpaceAvail | stDataAvail | stCardInsert | stCardRemove | stCardInt
    | stCmdTimeout | stCmdCrc | stCmdEndBit | stCmdIndex | stDataTimeout | stDataCrc | stDataEndBit
    | stUnclassified | spuriousAllOnes => cases hw
    | irq => exact dispatch_storesIn he hp
    | dataIrq mask => exact onDataInterrupt_storesIn mask hp
    | pio => exact transferPio_storesIn hp
    | pioReadBlock => exact readActiveBlock_storesIn hp
    | schedule w => cases w <;> exact hmoves.storesIn hp (of_decide_eq_true rfl)
    | read8 off | read32 off => exact hmoves.storesIn hp (mem_notMem_access (mem_notMem_readField _ off))
    | write8 off _ | write32 off _ | write16 off _ =>
      exact hmoves.storesIn hp (mem_notMem_access (mem_notMem_regField _ off))
    | _ => exact hmoves.storesIn hp (of_decide_eq_true rfl)

/-- Settles O14: every step that writes memory at all stores where storedAt says. -/
theorem memoryFrame : Obligations.MemoryFrame := by
  unfold Obligations.MemoryFrame
  intro i s t a hp h ha
  obtain ⟨-, he, hrule⟩ := exec_next h
  exact (rule_storesIn he hp).next hrule a ha

end Sys2Proof.Machine

/-! Single steps in full (spec/30_encoding.md, spec/40_register_interface.md, spec/41_command_engine.md,
spec/45_completion_watchdog.md, spec/46_issuer_platform.md): one equation per access, encoding, platform move
and submission, and the proofs of ResetState, ResetInv, ReadRegisters, WriteRegisters, LogTimerSchedule,
RegisterEncodings, FieldCodes, IssueCommand, TriggerBlock, StatusWordsRaise, CardWork, SubmitTurnedAway,
SubmitIssues, PlatformSteps and EnvCard. -/

namespace Sys2Proof.Machine

/-! ### Reset (R280 to R282) -/

/-- Settles O11: both sides evaluate to the reset state. -/
theorem resetState : Obligations.ResetState := by
  unfold Obligations.ResetState
  exact ⟨rfl, rfl, rfl, rfl, rfl, rfl, rfl, rfl, rfl, rfl, rfl, rfl, rfl, rfl⟩

/-- Settles O12: the invariant evaluates to true at reset. -/
theorem resetInv : Obligations.ResetInv := by
  unfold Obligations.ResetInv
  exact ⟨by decide, rfl⟩

/-! ### Accesses by offset (R115 to R119) -/

section
variable {s : State} (hs : ready s = true) {off : Word} {r : Reg} (hoff : off.toNat = regOff s.params r)
include hs hoff

theorem exec_read8_reg (hb : regBytes r = 1) (hd : regReadable r = true) :
    exec (.read8 off) s = .next (record (.r8 off.toNat (show8 r s).1) (show8 r s).2) := by
  obtain ⟨hf, ha, hp⟩ := ready_iff.1 hs
  rw [exec_read8_eq_check hf, hoff, check_regOff hp ha r hb hd]
  rfl

theorem exec_read32_reg (hb : regBytes r = 4) (hd : regReadable r = true) :
    exec (.read32 off) s = .next (record (.r32 off.toNat (show32 r s).1) (show32 r s).2) := by
  obtain ⟨hf, ha, hp⟩ := ready_iff.1 hs
  rw [exec_read32_eq_check hf, hoff, check_regOff hp ha r hb hd]
  rfl

theorem exec_write8_reg (hb : regBytes r = 1) (hd : regWritable r = true) (v : Byte) :
    exec (.write8 off v) s = .next { s with
      win := latch8 r v s.win, trace := s.trace ++ [.w8 off.toNat v] } := by
  obtain ⟨hf, ha, hp⟩ := ready_iff.1 hs
  rw [exec_write8_eq_check hf, hoff, check_regOff hp ha r hb hd]
  rfl

theorem exec_write32_reg (hb : regBytes r = 4) (hd : regWritable r = true) (v : Word) :
    exec (.write32 off v) s = .next { s with
      win := latch32 r v s.win, trace := s.trace ++ [.w32 off.toNat v] } := by
  obtain ⟨hf, ha, hp⟩ := ready_iff.1 hs
  rw [exec_write32_eq_check hf, hoff, check_regOff hp ha r hb hd]
  rfl

end

theorem exec_write16_blksize {s : State} (hs : ready s = true) {off : Word}
    (hoff : off.toNat = s.params.offBlksize) (v : Half) : exec (.write16 off v) s = .next { s with
      win := { s.win with blksize := v }, trace := s.trace ++ [.w16 off.toNat v] } := by
  obtain ⟨hf, ha, hp⟩ := ready_iff.1 hs
  have hcheck : check s s.params.offBlksize 2 regWritable = some .blksize := check_regOff hp ha .blksize rfl rfl
  rw [exec_write16_eq_check hf, hoff, hcheck]
  rfl

/-- What each register shows that the environment supplies: the next draw, which it then holds (log 9). -/
theorem show32_drawn (s : State) :
    (show32 .present s = (presentShown s, { afterDraws 1 s with win := { s.win with present := presentShown s } })) ∧
    (show32 .resp0 s = (drawAt s 0, { afterDraws 1 s with win := { s.win with resp0 := drawAt s 0 } })) ∧
    (show32 .resp1 s = (drawAt s 0, { afterDraws 1 s with win := { s.win with resp1 := drawAt s 0 } })) ∧
    (show32 .resp2 s = (drawAt s 0, { afterDraws 1 s with win := { s.win with resp2 := drawAt s 0 } })) ∧
    (show32 .resp3 s = (drawAt s 0, { afterDraws 1 s with win := { s.win with resp3 := drawAt s 0 } })) ∧
    (show32 .data s = (drawAt s 0, { afterDraws 1 s with win := { s.win with data := drawAt s 0 } })) := by
  simp only [show32, draw_eq, presentValue_drawAt]
  exact ⟨rfl, rfl, rfl, rfl, rfl, rfl⟩

/-- Settles O17: the window check finds the register, and what it shows is the latch or the next draw. -/
theorem readRegisters : Obligations.ReadRegisters := by
  unfold Obligations.ReadRegisters
  intro s off hs o v u
  obtain ⟨hpresent, hresp0, hresp1, hresp2, hresp3, hdata⟩ := show32_drawn s
  refine ⟨fun h => ?_, fun h => ?_, fun h => ?_, fun h => ?_, fun h => ?_, fun h => ?_, fun h => ?_, fun h => ?_⟩
  · rw [exec_read8_reg (r := .abort) hs h rfl rfl]
    simp only [show8, draw_eq]
    rfl
  · exact exec_read32_reg (r := .intStatus) hs h rfl rfl
  · rw [exec_read32_reg (r := .present) hs h rfl rfl, hpresent]; rfl
  · rw [exec_read32_reg (r := .resp0) hs h rfl rfl, hresp0]; rfl
  · rw [exec_read32_reg (r := .resp1) hs h rfl rfl, hresp1]; rfl
  · rw [exec_read32_reg (r := .resp2) hs h rfl rfl, hresp2]; rfl
  · rw [exec_read32_reg (r := .resp3) hs h rfl rfl, hresp3]; rfl
  · rw [exec_read32_reg (r := .data) hs h rfl rfl, hdata]; rfl

/-- Settles O18: the window check finds the register, which latches the value. -/
theorem writeRegisters : Obligations.WriteRegisters := by
  unfold Obligations.WriteRegisters
  intro s off b h w hs o
  exact ⟨fun ho => exec_write8_reg (r := .cmd) hs ho rfl rfl b,
    fun ho => exec_write8_reg (r := .cmdCtrl) hs ho rfl rfl b,
    fun ho => exec_write8_reg (r := .dataCtrl) hs ho rfl rfl b,
    fun ho => exec_write8_reg (r := .abort) hs ho rfl rfl b,
    fun ho => exec_write8_reg (r := .power) hs ho rfl rfl b,
    fun ho => exec_write16_blksize hs ho h,
    fun ho => exec_write32_reg (r := .intStatus) hs ho rfl rfl w,
    fun ho => exec_write32_reg (r := .intEnable) hs ho rfl rfl w,
    fun ho => exec_write32_reg (r := .arg) hs ho rfl rfl w,
    fun ho => exec_write32_reg (r := .data) hs ho rfl rfl w⟩

/-! ### LOG, ARM, CANCEL, SCHEDULE, WORK_CARD (R123, R129, R130, R41, R212) -/

/-- Settles O20: each step is its one update of the state. -/
theorem logTimerSchedule : Obligations.LogTimerSchedule := by
  unfold Obligations.LogTimerSchedule
  intro s n m k hf
  have hrun : ∀ (i : Instr) (t : State), t.fault = none → enabled i t = true →
      exec i t = (rule i t).outcome := fun i t ht he => exec_enabled ht he
  refine ⟨hrun _ s hf rfl, (hrun (.log k) { s with trace := s.trace ++ [.log k] } hf rfl).trans ?_,
    hrun _ s hf rfl, hrun (.arm m) { s with timer := some n } hf rfl, hrun _ s hf rfl, hrun _ s hf rfl,
    hrun _ s hf rfl, fun hpend => (hrun _ s hf rfl).trans ?_, fun hpend => (hrun _ s hf rfl).trans ?_⟩
  · show Host.Outcome.next (logEvent k { s with trace := s.trace ++ [.log k] }) = _
    simp [logEvent, record]
  · show Host.Outcome.next { s with finishPend := true } = _
    rw [← hpend]
  · show Host.Outcome.next { s with cardPend := true } = _
    rw [← hpend]

theorem exec_workCard {s : State} (hf : s.fault = none) (hc : s.cardPend = true) :
    exec .workCard s = .next (record .notifyPresence { s with cardPend := false }) :=
  exec_enabled hf hc

theorem exec_workCard_notEnabled {s : State} (hf : s.fault = none) (hc : s.cardPend = false) :
    exec .workCard s = .refused (.notEnabled "WORK_CARD") :=
  whenEnabled_false hf hc (fun u => (rule .workCard u).outcome)

theorem exec_scheduleCard {s : State} (hf : s.fault = none) :
    exec (.schedule .card) s = .next { s with cardPend := true } :=
  exec_enabled hf rfl

/-- Settles O48: the flag gates the one notification, and scheduling twice sets the one flag. -/
theorem cardWork : Obligations.CardWork := by
  unfold Obligations.CardWork
  intro s hf
  refine ⟨fun hc => exec_workCard hf hc, fun hc => exec_workCard_notEnabled hf hc, ?_⟩
  let t : State := { s with cardPend := true }
  let v : State := { s with cardPend := false, trace := s.trace ++ [.notifyPresence] }
  exact ⟨t, t, v, exec_scheduleCard hf, exec_scheduleCard (s := t) hf, exec_workCard (s := t) hf rfl, rfl,
    exec_workCard_notEnabled (s := v) hf rfl⟩

/-! ### The register-level encodings and field codes (R87 to R93, R97, R98; log 13, log 15) -/

section
variable {s : State} (hs : ready s = true)
include hs

/-- A step that writes CMD_CTRL alone. -/
theorem outcome_writeCmdCtrl (v : Byte) : (writeReg8 .cmdCtrl v s).outcome = .next { s with
    win := { s.win with cmdCtrl := v }, trace := s.trace ++ [.w8 s.params.offCmdCtrl v] } := by
  obtain ⟨-, ha, hp⟩ := ready_iff.1 hs
  rw [writeCmdCtrl_ok hp ha]
  rfl

/-- A step that writes DATA_CTRL alone. -/
theorem outcome_writeDataCtrl (v : Byte) : (writeReg8 .dataCtrl v s).outcome = .next { s with
    win := { s.win with dataCtrl := v }, trace := s.trace ++ [.w8 s.params.offDataCtrl v] } := by
  obtain ⟨-, ha, hp⟩ := ready_iff.1 hs
  rw [writeDataCtrl_ok hp ha]
  rfl

/-- A shape code launches with its shape's control byte. -/
theorem outcome_launch (sh : Shape) : (launch (Shape.code sh) s).outcome = .next { s with
    win := { s.win with cmdCtrl := rspCtl s.params sh }
    trace := s.trace ++ [.w8 s.params.offCmdCtrl (rspCtl s.params sh)] } := by
  have hcode : Shape.ofCode (Shape.code sh) = some sh := by cases sh <;> rfl
  simp only [launch, hcode]
  exact outcome_writeCmdCtrl hs _

end

theorem exec_abort_completes {s : State} (hs : ready s = true) {i : Instr} {k : AbortKind}
    (he : enabled i s = true) (hi : rule i s = abortSequence k s) :
    ∃ t, exec i s = .next t ∧ exec (.abortSeq k) s = .next t ∧ t.fault = none := by
  have hf := (ready_iff.1 hs).1
  obtain ⟨t, ht, hready⟩ := abortSequence_completes k hs
  refine ⟨t, ?_, ?_, (ready_iff.1 hready).1⟩
  · rw [exec_enabled hf he, hi, ht, Res.outcome_done]
  · rw [exec_abortSeq hf, ht, Res.outcome_done]

/-- Settles O21: each encoding's rule is the one write of its register, or its abort sequence. -/
theorem registerEncodings : Obligations.RegisterEncodings := by
  unfold Obligations.RegisterEncodings
  intro s hs p ctrl dctl
  obtain ⟨hf, ha, hp⟩ := ready_iff.1 hs
  refine ⟨fun opcode => ?_, fun a => ?_, ?_, ?_, ?_, ?_, ?_, ?_, ?_, fun n => ?_,
    exec_abort_completes hs rfl rfl, exec_abort_completes hs rfl rfl⟩
  · intro v
    have hv : cmdByte p opcode.toNat = v := by rw [cmdByte, BitVec.ofNat_toNat]
    refine (exec_enabled hf rfl).trans ?_
    show (writeReg8 .cmd (cmdByte p opcode.toNat) s).outcome = _
    rw [writeCmd_ok hp ha, hv]
    rfl
  · intro v
    refine (exec_enabled hf rfl).trans ?_
    show (writeReg32 .arg v s).outcome = _
    rw [writeArg_ok hp ha]
    rfl
  · exact (exec_enabled hf rfl).trans (outcome_writeCmdCtrl hs 0)
  · exact (exec_enabled hf rfl).trans (outcome_writeCmdCtrl hs _)
  · exact (exec_enabled hf rfl).trans (outcome_writeCmdCtrl hs _)
  · exact (exec_enabled hf rfl).trans (outcome_writeCmdCtrl hs _)
  · exact (exec_enabled hf rfl).trans (outcome_writeCmdCtrl hs _)
  · exact (exec_enabled hf rfl).trans (outcome_writeDataCtrl hs _)
  · exact (exec_enabled hf rfl).trans (outcome_writeDataCtrl hs _)
  · intro v
    have hv : blkSz16 n.toNat = v := by rw [blkSz16, BitVec.ofNat_toNat]
    refine (exec_enabled hf rfl).trans ?_
    show (writeReg16 .blksize (blkSz16 n.toNat) s).outcome = _
    rw [writeBlksize_ok hp ha, hv]
    rfl

theorem takeSlot_ok {s : State} {r : Role} (h : (cmdOf s r).isSome = true) :
    takeSlot r s = done { s with curCmd := some r } := by
  obtain ⟨c, hc⟩ := Option.isSome_iff_exists.1 h
  simp [takeSlot, hc]

/-- Settles O22: a shape launches, an unknown one raises, a direction writes its byte, a role takes the slot. -/
theorem fieldCodes : Obligations.FieldCodes := by
  unfold Obligations.FieldCodes
  refine ⟨fun s hs => ?_, fun s code hf hcode => ?_, fun s hf => ⟨fun hc => ?_, fun hc => ?_, fun hc => ?_⟩⟩
  · intro p ctrl dctl
    have hf := (ready_iff.1 hs).1
    exact ⟨(exec_enabled hf rfl).trans (outcome_launch hs .noResponse),
      (exec_enabled hf rfl).trans (outcome_launch hs .short),
      (exec_enabled hf rfl).trans (outcome_launch hs .shortBusy),
      (exec_enabled hf rfl).trans (outcome_launch hs .long),
      (exec_enabled hf rfl).trans (outcome_launch hs .r3),
      (exec_enabled hf rfl).trans (outcome_writeDataCtrl hs _),
      (exec_enabled hf rfl).trans (outcome_writeDataCtrl hs _)⟩
  · refine (exec_enabled hf rfl).trans ?_
    show (launch code s).outcome = _
    rw [launch_shapeFault ((Shape.ofCode_eq_none_iff code).2 hcode)]
    rfl
  · exact (exec_enabled hf rfl).trans (congrArg Res.outcome (takeSlot_ok hc))
  · exact (exec_enabled hf rfl).trans (congrArg Res.outcome (takeSlot_ok hc))
  · exact (exec_enabled hf rfl).trans (congrArg Res.outcome (takeSlot_ok hc))

/-! ### ISSUE without data and TRIGGER_BLOCK (R125 to R128, R152) -/

theorem timeoutUnits_noData (ms : Nat) :
    timeoutUnits false ms = if 9000 < ms then (ms + 999) / 1000 + 1 else 10 := by
  simp [timeoutUnits, Config.wdLongThresholdMs, ceilDiv, Config.wdMsPerUnitDivisor, Config.wdExtraUnits,
    Config.wdDefaultUnits]

theorem issuedData_noData {s : State} {c : Command} (h : hasData s c = false) : issuedData s c = none := by
  simp [issuedData, h]

/-- Settles O23: the slot is taken, the watchdog armed, and the known command sent. -/
theorem issueCommand : Obligations.IssueCommand := by
  unfold Obligations.IssueCommand
  intro s r c sh hs hc hdata hop hsh p n b a
  obtain ⟨-, ha, hp⟩ := ready_iff.1 (ready_slotTaken hs r c)
  rw [exec_issue_noData hs hc (issuedData_noData hdata), sendCommand_known ha hp hop hsh]
  simp [launched, commandWritten, slotTaken, record, armTimer, hdata, timeoutUnits_noData, cmdByte, argWord,
    n, b, a, p]

theorem dataCtl_eq (p : Params) (dir : Dir) :
    dataCtl p dir = (if dir = .read then p.dctlRead else p.dctlWrite) ||| p.dctlStart := by
  cases dir <;> rfl

theorem triggerBlock_ok {s : State} (hs : ready s = true) (size : Half) (dir : Dir) :
    triggerBlock size dir s = done { s with
      win := { s.win with blksize := size, dataCtrl := dataCtl s.params dir }
      trace := s.trace ++ [.w16 s.params.offBlksize size, .w8 s.params.offDataCtrl (dataCtl s.params dir)] } := by
  obtain ⟨-, ha, hp⟩ := ready_iff.1 hs
  simp [triggerBlock, writeBlksize_ok, writeDataCtrl_ok, ha, hp]

theorem exec_triggerBlock {s : State} (hf : s.fault = none) (size : Half) (dir : Dir) :
    exec (.triggerBlock size dir) s = (triggerBlock size dir s).outcome := exec_enabled hf rfl

/-- Settles O31: the two writes in their order. -/
theorem triggerBlockWrites : Obligations.TriggerBlock := by
  unfold Obligations.TriggerBlock
  intro s size dir hs p v
  have hv : dataCtl s.params dir = v := dataCtl_eq p dir
  rw [exec_triggerBlock (ready_iff.1 hs).1, triggerBlock_ok hs, hv, Res.outcome_done]

/-! ### Status words (R94, R110; log 14) -/

/-- A status-word step is the dispatch of the word raised. -/
theorem exec_statusWord {i : Instr} {w : Word} {s : State} (hf : s.fault = none) (ha : s.attached = true)
    (h : raisedWord s.params i = some w) : exec i s = (dispatch (envRaise w s)).outcome := by
  rw [exec_enabled hf ((enabled_raised h).trans ha), rule_raised h]

/-- Settles O42: both ways end as the dispatch of the word raised. -/
theorem statusWordsRaise : Obligations.StatusWordsRaise := by
  unfold Obligations.StatusWordsRaise
  intro i w s hf ha h
  refine ⟨exec_envRaise hf w, ?_⟩
  rw [exec_statusWord hf ha h]
  exact (exec_enabled (s := envRaise w s) (i := .irq) hf ha).symm

/-! ### SUBMIT (R230, R231, R255) -/

theorem exec_submit {s : State} (hf : s.fault = none) (r : Request) :
    exec (.submit r) s = (submitRequest r s).outcome := exec_enabled hf rfl

/-- The state after SUBMIT accepted a Request and read PRESENT (R230; log 8, log 26). -/
def accepted (r : Request) (s : State) : State :=
  { afterDraws 1 s with
    req := some (Request.withRoles r)
    dutyBroken := !Request.dutiesKept (Request.withRoles r)
    win := { s.win with present := presentShown s }
    trace := s.trace ++ [.r32 s.params.offPresent (presentShown s)] }

theorem submitRequest_starts {s : State} (ha : s.attached = true) (hq : s.req = none) {r : Request}
    (hr : r.cmd ≠ none) : submitRequest r s = startRequest r s := by
  simp [submitRequest, ha, hq, hr]

theorem withRoles_sbc_isSome (r : Request) : (Request.withRoles r).sbc.isSome = r.sbc.isSome := by
  simp [Request.withRoles, Request.mapCommand]

section
variable {s : State} (hs : ready s = true) {r : Request}
include hs

theorem readPresent_started :
    readReg32 .present { s with
      req := some (Request.withRoles r), dutyBroken := !Request.dutiesKept (Request.withRoles r) } =
      .ok (presentShown s) (accepted r s) := by
  obtain ⟨-, ha, hp⟩ := ready_iff.1 hs
  rw [readReg32_ok (by exact hp) (by exact ha) .present rfl rfl, (show32_drawn _).1]
  rfl

/-- R233: with no card the primary command takes NoMedium and the request-finish work is scheduled. -/
theorem startRequest_noCard (h : presentShown s &&& bitMask s.params.presentCard = 0) :
    startRequest r s =
      done (scheduleWork .finish (updCmd .primary (fun c => { c with error := .noMedium }) (accepted r s))) := by
  have hbit : presentShown s &&& bitMask (accepted r s).params.presentCard = 0 := h
  simp only [startRequest, readPresent_started hs, Res.bind_ok, hbit, if_true]

theorem startRequest_card (h : presentShown s &&& bitMask s.params.presentCard ≠ 0) :
    startRequest r s = if r.sbc.isSome then issue .sbc (accepted r s) else issue .primary (accepted r s) := by
  have hbit : ¬ (presentShown s &&& bitMask (accepted r s).params.presentCard = 0) := h
  simp only [startRequest, readPresent_started hs, Res.bind_ok, hbit, if_false, withRoles_sbc_isSome]

end

/-- Settles O55: one raise per refusal, in their order, and the NoMedium path. -/
theorem submitTurnedAway : Obligations.SubmitTurnedAway := by
  unfold Obligations.SubmitTurnedAway
  intro s r hf faulted
  rw [exec_submit hf]
  refine ⟨fun ha => ?_, fun ha hq => ?_, fun ha hq hr => ?_, fun hs hq hr hcard => ?_⟩
  · simp [submitRequest, ha, faulted]
  · simp [submitRequest, ha, Option.isSome_iff_ne_none.2 hq, faulted]
  · simp [submitRequest, ha, hq, hr, faulted]
  · rw [submitRequest_starts (ready_iff.1 hs).2.1 hq hr, startRequest_noCard hs hcard]
    rfl

theorem command_withRoles_primary (r : Request) : Request.command (Request.withRoles r) .primary =
    r.cmd.map (fun c => { c with role := .primary }) := by
  simp [Request.withRoles, Request.mapCommand, Request.command]

/-- Settles O56: with a card SUBMIT is the issue of the first command, and a data-less primary's issue is O23's. -/
theorem submitIssues : Obligations.SubmitIssues := by
  unfold Obligations.SubmitIssues
  intro s r c hs hq hr hcard acc
  obtain ⟨hf, ha, -⟩ := ready_iff.1 hs
  have hstart : exec (.submit r) s =
      (if r.sbc.isSome then issue .sbc (accepted r s) else issue .primary (accepted r s)).outcome := by
    rw [exec_submit hf, submitRequest_starts ha hq (by simp [hr]), startRequest_card hs hcard]
  have hprimary : r.sbc = none → exec (.submit r) s = exec (.issue .primary) acc := fun hsbc => by
    rw [hstart, hsbc, exec_issue (s := acc) hf]
    rfl
  refine ⟨fun hsbc => ?_, hprimary, fun sh hsbc hdata hop hsh => ?_⟩
  · rw [hstart, if_pos (Option.isSome_iff_ne_none.2 hsbc), exec_issue (s := acc) hf]
    rfl
  · have hcmd : cmdOf acc .primary = some { c with role := .primary } := by
      show Request.command (Request.withRoles r) .primary = _
      rw [command_withRoles_primary, hr]
      rfl
    have hnone : (Request.withRoles r).data = none := by
      simp [Request.withRoles, Request.mapCommand, hdata]
    have hhas : hasData acc { c with role := .primary } = false := by
      simp [hasData, dataOf, acc, hnone]
    rw [hprimary hsbc]
    exact issueCommand acc .primary { c with role := .primary } sh hs hcmd hhas hop hsh

/-! ### ATTACH, DETACH, SET_POWER (R234, R235, R244), ENV_CARD (R241) -/

theorem writeIntEnable_ok {s : State} (hp : paramsOk s.params = true) (ha : s.attached = true) (v : Word) :
    writeReg32 .intEnable v s =
      done { record (.w32 s.params.offIntEnable v) s with win := { s.win with intEnable := v } } :=
  writeReg32_ok hp ha .intEnable rfl rfl v

theorem setPowerMode_ok {s : State} (hs : ready s = true) (mode : PowerMode) :
    setPowerMode mode s = done { s with
      power := mode
      win := { s.win with power := powerCtl s.params mode }
      trace := s.trace ++ [.w8 s.params.offPower (powerCtl s.params mode)] } := by
  obtain ⟨-, ha, hp⟩ := ready_iff.1 hs
  rw [setPowerMode, writeReg8_ok (by exact hp) (by exact ha) .power rfl rfl]
  rfl

theorem enabled_detach {s : State} : enabled .detach s = true ↔ s.attached = true ∧ s.req = none ∧
    s.finishPend = false ∧ s.cardPend = false ∧ s.timer = none ∧ s.notifyQ = [] := by
  simp [enabled, and_assoc]

/-- Settles O58: each platform move is its updates and the one register write. -/
theorem platformSteps : Obligations.PlatformSteps := by
  unfold Obligations.PlatformSteps
  refine ⟨fun s hf ha hp => ?_, fun s hs hq hfin hcard htimer hqueue => ?_, fun s hs => ?_⟩
  · refine (exec_enabled hf (by simp [enabled, ha])).trans ?_
    show (attachWindow s).outcome = _
    rw [attachWindow, writeIntEnable_ok (by exact hp) rfl]
    rfl
  · obtain ⟨hf, ha, hp⟩ := ready_iff.1 hs
    refine (exec_enabled hf (enabled_detach.2 ⟨ha, hq, hfin, hcard, htimer, hqueue⟩)).trans ?_
    show (detachWindow s).outcome = _
    rw [detachWindow, writeIntEnable_ok hp ha]
    rfl
  · intro set rail
    obtain ⟨hf, ha, -⟩ := ready_iff.1 hs
    have hset : ∀ (i : Instr) (m : PowerMode), enabled i s = true → rule i s = setPowerMode m s →
        exec i s = set m (powerCtl s.params m) := fun i m he hi => by
      rw [exec_enabled hf he, hi, setPowerMode_ok hs]
      rfl
    exact ⟨hset _ _ ha rfl, hset _ _ ha rfl, hset _ _ ha rfl, hset _ _ ha rfl, hset _ _ ha rfl, hset _ _ ha rfl⟩

theorem exec_envCard {s : State} (hf : s.fault = none) (b : Bool) :
    exec (.envCard b) s = .next (envCard b s) := exec_enabled hf rfl

/-- Where reads show the slot, the card bit shown is the one PRESENT holds (R51, R241). -/
theorem presentShown_slot_card {s : State} (h : s.params.presentRead = .slot) :
    presentShown s &&& bitMask s.params.presentCard = s.win.present &&& bitMask s.params.presentCard := by
  rw [← presentValue_drawAt, presentValue_slot_card h]

/-- Settles O60: the step is the update of the one bit, and a slot read shows that bit. -/
theorem envCardStep : Obligations.EnvCard := by
  unfold Obligations.EnvCard
  intro s hf
  refine ⟨exec_envCard hf true, exec_envCard hf false, fun hslot => ⟨⟨_, exec_envCard hf true, ?_⟩,
    _, exec_envCard hf false, ?_⟩⟩
  · refine (presentShown_slot_card (s := envCard true s) hslot).trans ?_
    show (s.win.present ||| bitMask s.params.presentCard) &&& bitMask s.params.presentCard = _
    ext i hi
    simp +contextual
  · refine (presentShown_slot_card (s := envCard false s) hslot).trans ?_
    show (s.win.present &&& ~~~bitMask s.params.presentCard) &&& bitMask s.params.presentCard = _
    ext i hi
    simp

end Sys2Proof.Machine

/-! Command ends and data interrupts in full (spec/41_command_engine.md R140 to R146, spec/42_data_session.md
R150 to R165, spec/45_completion_watchdog.md R205 to R210): the state after a response was read, one equation
per case of finish_command, prepare and the data interrupt, and the proofs of FinishCommand, Prepare,
DataInterruptNoPhase, DataInterruptPhase and FinishWork. -/

namespace Sys2Proof.Machine

/-! ### The response (R141) -/

/-- The state after n draws were read: the window they left, and the events recorded. -/
def drawn (n : Nat) (w : Window) (es : List Event) (s : State) : State :=
  { afterDraws n s with win := w, trace := s.trace ++ es }

theorem drawn_zero (s : State) : drawn 0 s.win [] s = s := by simp [drawn, afterDraws]

theorem drawAt_drawn (n k : Nat) (w : Window) (es : List Event) (s : State) :
    drawAt (drawn n w es s) k = drawAt s (n + k) := drawAt_afterDraws n k s

theorem afterDraws_drawn (n : Nat) (w w' : Window) (es : List Event) (e : Event) (s : State) :
    record e { afterDraws 1 (drawn n w es s) with win := w' } = drawn (n + 1) w' (es ++ [e]) s := by
  have h := afterDraws_afterDraws n 1 s
  simp only [afterDraws, State.mk.injEq] at h
  simp only [record, drawn, afterDraws, h, List.append_assoc]

section
variable {s : State} (hs : ready s = true) {n : Nat} {w : Window} {es : List Event}
include hs

theorem readReg32_drawn {r : Reg} {latched : Window} (hb : regBytes r = 4) (hd : regReadable r = true)
    (hshow : show32 r (drawn n w es s) =
      (drawAt (drawn n w es s) 0, { afterDraws 1 (drawn n w es s) with win := latched })) :
    readReg32 r (drawn n w es s) =
      .ok (drawAt s n) (drawn (n + 1) latched (es ++ [.r32 (regOff s.params r) (drawAt s n)]) s) := by
  obtain ⟨-, ha, hp⟩ := ready_iff.1 hs
  rw [readReg32_ok (s := drawn n w es s) hp ha r hb hd, hshow, drawAt_drawn, afterDraws_drawn]
  rfl

theorem readResp0_drawn : readReg32 .resp0 (drawn n w es s) = .ok (drawAt s n)
    (drawn (n + 1) { w with resp0 := drawAt s n } (es ++ [.r32 s.params.offResp0 (drawAt s n)]) s) :=
  readReg32_drawn hs rfl rfl ((show32_drawn _).2.1.trans (by rw [drawAt_drawn]; rfl))

theorem readResp1_drawn : readReg32 .resp1 (drawn n w es s) = .ok (drawAt s n)
    (drawn (n + 1) { w with resp1 := drawAt s n } (es ++ [.r32 s.params.offResp1 (drawAt s n)]) s) :=
  readReg32_drawn hs rfl rfl ((show32_drawn _).2.2.1.trans (by rw [drawAt_drawn]; rfl))

theorem readResp2_drawn : readReg32 .resp2 (drawn n w es s) = .ok (drawAt s n)
    (drawn (n + 1) { w with resp2 := drawAt s n } (es ++ [.r32 s.params.offResp2 (drawAt s n)]) s) :=
  readReg32_drawn hs rfl rfl ((show32_drawn _).2.2.2.1.trans (by rw [drawAt_drawn]; rfl))

theorem readResp3_drawn : readReg32 .resp3 (drawn n w es s) = .ok (drawAt s n)
    (drawn (n + 1) { w with resp3 := drawAt s n } (es ++ [.r32 s.params.offResp3 (drawAt s n)]) s) :=
  readReg32_drawn hs rfl rfl ((show32_drawn _).2.2.2.2.1.trans (by rw [drawAt_drawn]; rfl))

end

/-- The state after the response words of a shape were read. -/
def responseRead (sh : Shape) (s : State) : State :=
  drawn (responseWords sh) (responseWin sh (drawAt s) s.win) (responseReads s.params sh (drawAt s)) s

theorem mapCommand_self (q : Request) (r : Role) : Request.mapCommand q r (fun c => c) = q := by
  cases r <;> simp [Request.mapCommand]

theorem updCmd_self (r : Role) (s : State) : updCmd r (fun c => c) s = s := by
  simp [updCmd, mapCommand_self]

theorem mapCommand_mapCommand (q : Request) (r : Role) (f g : Command → Command) :
    Request.mapCommand (Request.mapCommand q r f) r g = Request.mapCommand q r (fun c => g (f c)) := by
  cases r <;> simp [Request.mapCommand, Option.map_map, Function.comp_def]

theorem updCmd_updCmd (r : Role) (f g : Command → Command) (s : State) :
    updCmd r g (updCmd r f s) = updCmd r (fun c => g (f c)) s := by
  cases hq : s.req <;> simp [updCmd, hq, mapCommand_mapCommand]

/-- R141: the words of the shape are read in order and stored in the command of the role. -/
theorem captureResponse_ok {s : State} (hs : ready s = true) {r : Role} {c : Command} {sh : Shape}
    (hsh : Shape.ofCode c.shapeCode = some sh) : captureResponse r c s =
      done (updCmd r (fun x => { x with resp := responseStored s.params sh (drawAt s) x.resp })
        (responseRead sh s)) := by
  have one : readReg32 .resp0 s = .ok (drawAt s 0) (responseRead .short s) := by
    have h := readResp0_drawn hs (n := 0) (w := s.win) (es := [])
    rwa [drawn_zero] at h
  cases sh with
  | noResponse =>
    have hread : responseRead .noResponse s = s := drawn_zero s
    simp only [captureResponse, hsh, hread, responseStored, updCmd_self]
  | short => simp only [captureResponse, hsh, one, Res.bind_ok, responseStored]
  | shortBusy => simp only [captureResponse, hsh, one, Res.bind_ok, responseStored]; rfl
  | r3 => simp only [captureResponse, hsh, one, Res.bind_ok, responseStored]; rfl
  | long =>
    have first : readReg32 .resp0 s = .ok (drawAt s 0) (drawn 1 { s.win with resp0 := drawAt s 0 }
      [.r32 s.params.offResp0 (drawAt s 0)] s) := one
    simp only [captureResponse, hsh, first, readResp1_drawn hs, readResp2_drawn hs, readResp3_drawn hs,
      Res.bind_ok]
    rfl

/-! ### finish_command (R140 to R145) -/

theorem captured_eq (r : Role) (sh : Shape) (s : State) :
    { updCmd r (fun x => { x with error := .ok })
        (updCmd r (fun x => { x with resp := responseStored s.params sh (drawAt s) x.resp })
          (responseRead sh s)) with curCmd := none } = captured r sh s := by
  rw [updCmd_updCmd]
  rfl

section
variable {s : State} {r : Role} {c : Command} {sh : Shape} (hs : ready s = true) (hcur : s.curCmd = some r)
  (hc : cmdOf s r = some c) (hsh : Shape.ofCode c.shapeCode = some sh)
include hs hcur hc hsh

/-- R140: the response is captured, and then the role and the Data phase decide. -/
theorem finishCommand_eq : finishCommand s = afterCommand r (captured r sh s) := by
  simp only [finishCommand, hcur, hc, captureResponse_ok hs hsh, Res.bind_done, captured_eq]

end

theorem afterCommand_sbc (s : State) : afterCommand .sbc s = issue .primary s := rfl

theorem afterCommand_noData {r : Role} {s : State} (hr : r ≠ .sbc) (h : s.curData = false) :
    afterCommand r s = done (scheduleWork .finish s) := by
  simp [afterCommand, hr, h]

theorem afterCommand_early {r : Role} {s : State} {d : Data} (hr : r ≠ .sbc) (h : s.curData = true)
    (he : s.dataEarly = true) (hd : dataOf s = some d) : afterCommand r s = finishData d.error s := by
  simp [afterCommand, hr, h, he, hd]

theorem afterCommand_running {r : Role} {s : State} (hr : r ≠ .sbc) (h : s.curData = true)
    (he : s.dataEarly = false) : afterCommand r s = done s := by
  simp [afterCommand, hr, h, he]

theorem mapCommand_data (q : Request) (r : Role) (f : Command → Command) :
    (Request.mapCommand q r f).data =
      if r = .stop then q.data.map (fun d => { d with stop := d.stop.map f }) else q.data := by
  cases r <;> rfl

/-- Writing a Command leaves the Data object's own fields. -/
theorem dataOf_captured {s : State} {r : Role} {sh : Shape} {d : Data} (hd : dataOf s = some d) :
    ∃ stop, dataOf (captured r sh s) = some { d with stop := stop } := by
  cases hq : s.req with
  | none => simp [dataOf, hq] at hd
  | some q =>
    have hqd : q.data = some d := by simpa [dataOf, hq] using hd
    simp only [dataOf, captured, hq, Option.map_some, Option.bind_some, mapCommand_data, hqd]
    split
    · exact ⟨_, rfl⟩
    · exact ⟨d.stop, rfl⟩

/-- Settles O28: the captured state, from which one equation per case goes on. -/
theorem finishCommandCaptures : Obligations.FinishCommand := by
  unfold Obligations.FinishCommand
  intro s r c sh hs hcur hc hsh t
  have hf := (ready_iff.1 hs).1
  have ht : t.fault = none := hf
  rw [exec_finishCmd hf, finishCommand_eq hs hcur hc hsh]
  refine ⟨fun hr => ?_, fun hr hd => ?_, fun d hr hd he hdata => ?_, fun hr hd he => ?_⟩
  · rw [hr, afterCommand_sbc, exec_issue ht, ← hr]
  · rw [afterCommand_noData (s := captured r sh s) hr hd]
    rfl
  · obtain ⟨stop, hstop⟩ := dataOf_captured (r := r) (sh := sh) hdata
    rw [afterCommand_early (s := captured r sh s) hr hd he hstop, exec_finishData ht]
  · rw [afterCommand_running (s := captured r sh s) hr hd he]
    rfl

/-! ### prepare (R150, R153, R154) -/

theorem prepareData_noData {s : State} (h : dataOf s = none) : prepareData s = done s := by
  simp [prepareData, h]

theorem sgInRange_iff {p : Params} {d : Data} :
    sgInRange p d = true ↔ ∀ e ∈ d.sg, e.addr + e.len ≤ 2 ^ p.memAddrWidth := by
  simp only [sgInRange, List.all_eq_true, decide_eq_true_eq]

theorem sgCovers_iff {d : Data} :
    sgCovers d = true ↔ d.blksz * d.blocks ≤ (d.sg.map (fun e => e.len)).sum := by
  exact decide_eq_true_iff

theorem prepareFault_sgRange {p : Params} {d : Data} (hsz : sizesOk d = true) (hrg : sgInRange p d = false) :
    prepareFault p d = some .configSgRange := by
  simp [prepareFault, hsz, hrg]

theorem prepareFault_sgShort {p : Params} {d : Data} (hsz : sizesOk d = true) (hrg : sgInRange p d = true)
    (hcv : sgCovers d = false) : prepareFault p d = some .configSgShort := by
  simp [prepareFault, hsz, hrg, hcv]

/-- Settles O29: the first check that fails is raised, and an accepted Data object is attached. -/
theorem prepareSession : Obligations.Prepare := by
  unfold Obligations.Prepare
  intro s hf
  rw [exec_prepare hf]
  refine ⟨fun hnone => by rw [prepareData_noData hnone]; rfl, fun q d hq hd hsz => ?_⟩
  have hdata : dataOf s = some d := by simp [dataOf, hq, hd]
  refine ⟨fun ⟨e, he, hbig⟩ => ?_, fun hin hshort => ?_, fun hin hcover hs => ?_⟩
  · have hrg : sgInRange s.params d = false :=
      Bool.eq_false_iff.2 fun h => absurd (sgInRange_iff.1 h e he) (by omega)
    rw [prepareData_refused hdata (prepareFault_sgRange hsz hrg), Res.outcome_raise]
  · have hcv : sgCovers d = false :=
      Bool.eq_false_iff.2 fun h => absurd (sgCovers_iff.1 h) (by omega)
    rw [prepareData_refused hdata (prepareFault_sgShort hsz (sgInRange_iff.2 hin) hcv), Res.outcome_raise]
  · obtain ⟨-, ha, hp⟩ := ready_iff.1 hs
    rw [prepareData_accepted ha hp hdata
      (prepareFault_eq_none hsz (sgInRange_iff.2 hin) (sgCovers_iff.2 hcover))]
    simp [dataPrepared, updData, hq, Request.mapData, hd, blkSz16]

/-! ### The data interrupt with no Data phase (R157 to R159) -/

theorem busyOutstanding_iff {s : State} : busyOutstanding s = true ↔ ∃ r c, s.curCmd = some r ∧
    cmdOf s r = some c ∧ Shape.ofCode c.shapeCode = some .shortBusy := by
  cases hcur : s.curCmd with
  | none => simp [busyOutstanding, hcur]
  | some r => cases hc : cmdOf s r <;> simp [busyOutstanding, hcur, hc]

section
variable {s : State} {mask : Word}

theorem onDataInterrupt_noPhase (h : s.curData = false) : onDataInterrupt mask s = onDataNoPhase mask s := by
  simp [onDataInterrupt, h]

theorem onDataNoPhase_busy (hb : busyOutstanding s = true) (hx : mask &&& bitMask s.params.stXferComplete ≠ 0) :
    onDataNoPhase mask s = finishCommand s := by
  simp [onDataNoPhase, hb, (overlaps_iff _ _).2 hx]

variable (h : ¬ (busyOutstanding s = true ∧ mask &&& bitMask s.params.stXferComplete ≠ 0))
include h

theorem onDataNoPhase_spurious (hnone : s.curCmd = none ∨ mask &&& dataErr s.params = 0) :
    onDataNoPhase mask s = done (logEvent .spuriousData s) := by
  rw [onDataNoPhase, if_neg (by simpa [overlaps] using h)]
  cases hcur : s.curCmd with
  | none => rfl
  | some r =>
    have hmask : mask &&& dataErr s.params = 0 := hnone.resolve_left (by simp [hcur])
    simp [(overlaps_eq_false_iff _ _).2 hmask]

theorem onDataNoPhase_error {r : Role} (hcur : s.curCmd = some r) (he : mask &&& dataErr s.params ≠ 0) :
    onDataNoPhase mask s = forceTimeout r (logEvent .spuriousData s) := by
  rw [onDataNoPhase, if_neg (by simpa [overlaps] using h)]
  simp [hcur, (overlaps_iff _ _).2 he]

end

/-- Settles O32: busy end, spurious, or forced Timeout, one equation each. -/
theorem dataInterruptNoPhase : Obligations.DataInterruptNoPhase := by
  unfold Obligations.DataInterruptNoPhase
  intro s mask hf hdata busy done logged
  have hbusy : busyOutstanding s = true ↔ busy := busyOutstanding_iff
  have hdone : ¬ (busy ∧ done) → ¬ (busyOutstanding s = true ∧ mask &&& bitMask s.params.stXferComplete ≠ 0) :=
    fun h h' => h ⟨hbusy.1 h'.1, h'.2⟩
  rw [exec_dataIrq hf, onDataInterrupt_noPhase hdata]
  refine ⟨fun hb hx => ?_, fun h he => ?_, fun hnone => ?_, fun h he r q c hcur hq hc => ?_⟩
  · rw [onDataNoPhase_busy (hbusy.2 hb) hx, exec_finishCmd hf]
  · rw [onDataNoPhase_spurious (hdone h) (.inr he)]
    rfl
  · have hidle : ¬ (busy ∧ done) := fun ⟨⟨r, c, hcur, _⟩, _⟩ => by simp [hnone] at hcur
    rw [onDataNoPhase_spurious (hdone hidle) (.inl hnone)]
    rfl
  · have hcmd : cmdOf (logEvent .spuriousData s) r = some c := by
      show s.req.bind _ = _
      rw [hq]
      exact hc
    rw [onDataNoPhase_error (hdone h) hcur he, forceTimeout_command hcmd]
    simp [scheduleWork, updCmd, logEvent, record, hq, logged]

/-! ### The data interrupt with a Data phase (R160 to R165) -/

section
variable {p : Params} {mask : Word}

theorem dataError_timeout (h : mask &&& dataErrTo p ≠ 0) : dataError p mask = .timeout := by
  simp [dataError, (overlaps_iff _ _).2 h]

theorem dataError_protocolViolation (h : mask &&& dataErrTo p = 0) (h' : mask &&& dataErrProt p ≠ 0) :
    dataError p mask = .protocolViolation := by
  simp [dataError, (overlaps_eq_false_iff _ _).2 h, (overlaps_iff _ _).2 h']

theorem dataError_ok (h : mask &&& (dataErrTo p ||| dataErrProt p) = 0) : dataError p mask = .ok := by
  rw [BitVec.and_or_distrib_left] at h
  obtain ⟨hto, hprot⟩ := BitVec.or_eq_zero_iff.1 h
  simp [dataError, (overlaps_eq_false_iff _ _).2 hto, (overlaps_eq_false_iff _ _).2 hprot]

end

section
variable {s : State} {d : Data} {mask : Word} (hcur : s.curData = true) (hd : dataOf s = some d)
include hcur hd

theorem onDataInterrupt_error {e : Err} (he : dataError s.params mask = e) (hne : e ≠ .ok) :
    onDataInterrupt mask s = finishData e s := by
  simp [onDataInterrupt, hcur, hd, he, hne]

theorem onDataInterrupt_ok (he : dataError s.params mask = .ok) : onDataInterrupt mask s =
    (if movesBlock s mask then transferPio s else done s).bind fun _ t =>
      if overlaps mask (bitMask s.params.stXferComplete) then onTransferComplete d t else done t := by
  simp [onDataInterrupt, hcur, hd, he]

end

theorem exec_pio {s : State} (hf : s.fault = none) : exec .pio s = (transferPio s).outcome :=
  exec_enabled hf rfl

/-- The transfer-complete branch as the statement writes it (R163 to R165). -/
theorem outcome_transferComplete {t : State} (ht : t.fault = none) (d : Data) (mask : Word) (n : Nat) :
    (if overlaps mask (bitMask n) then onTransferComplete d t else done t).outcome =
      if mask &&& bitMask n = 0 then .next t
      else if t.curCmd ≠ none then .next { t with dataEarly := true }
      else if 0 < t.cursor.blocksLeft then exec (.triggerBlock (BitVec.ofNat 16 d.blksz) d.dir) t
      else exec (.finishData .ok) t := by
  by_cases hb : mask &&& bitMask n = 0
  · rw [if_neg (by simp [overlaps, hb]), if_pos hb]
    rfl
  · rw [if_pos ((overlaps_iff _ _).2 hb), if_neg hb, onTransferComplete]
    cases hcmd : t.curCmd with
    | some r => rfl
    | none =>
      by_cases hleft : 0 < t.cursor.blocksLeft
      · simp [hleft, exec_triggerBlock ht, blkSz16]
      · simp [hleft, exec_finishData ht]

/-- Two operations in sequence answer as two steps do: the second runs where the first raised no fault. -/
theorem Res.Moves.outcome_bind {W : List Field} {x : Res Unit} {s : State} (hx : x.Moves W s) (hf : s.fault = none)
    {f : Unit → State → Res Unit} {k : State → Answer} (hk : ∀ t, t.fault = none → (f () t).outcome = k t) :
    (x.bind f).outcome = thenStep x.outcome k := by
  cases x with
  | ok _ t =>
    have ht : t.fault = none := hx.2.trans hf
    rw [Res.bind_ok, Res.outcome_ok, hk t ht, thenStep_live ht]
  | raised t =>
    obtain ⟨-, r, hr, -⟩ := hx
    rw [Res.bind_raised, Res.outcome_raised, thenStep_faulted (by simp [hr])]
  | stuck r => rfl

/-- Settles O33: an error finishes; else the block move and the transfer-complete branch run in sequence. -/
theorem dataInterruptPhase : Obligations.DataInterruptPhase := by
  unfold Obligations.DataInterruptPhase
  intro s mask d hf hcur hd p
  have hmain : mask &&& (dataErrTo p ||| dataErrProt p) = 0 → exec (.dataIrq mask) s =
      thenStep (if movesBlock s mask then exec .pio s else .next s) (fun t =>
        if mask &&& bitMask p.stXferComplete = 0 then .next t
        else if t.curCmd ≠ none then .next { t with dataEarly := true }
        else if 0 < t.cursor.blocksLeft then exec (.triggerBlock (BitVec.ofNat 16 d.blksz) d.dir) t
        else exec (.finishData .ok) t) := fun hok => by
    have hmove : (if movesBlock s mask then transferPio s else done s).Moves pioWrites s := by
      split
      · exact transferPio_moves s
      · exact done_moves _ s
    have hfront : (if movesBlock s mask then transferPio s else done s).outcome =
        if movesBlock s mask then exec .pio s else .next s := by
      rw [exec_pio hf]
      split <;> rfl
    rw [exec_dataIrq hf, onDataInterrupt_ok hcur hd (dataError_ok hok), hmove.outcome_bind hf
      fun t ht => outcome_transferComplete ht d mask _, hfront]
  refine ⟨fun hto => ?_, fun hto hprot => ?_, fun hok => ?_, fun hquiet hx hcmd => ?_⟩
  · rw [exec_dataIrq hf, onDataInterrupt_error hcur hd (dataError_timeout hto) (by decide), exec_finishData hf]
  · rw [exec_dataIrq hf, onDataInterrupt_error hcur hd (dataError_protocolViolation hto hprot) (by decide),
      exec_finishData hf]
  · rw [hmain hok]
    simp only [movesBlock_iff]
    rfl
  · rw [BitVec.and_or_distrib_left] at hquiet
    obtain ⟨hok, hxfer⟩ := BitVec.or_eq_zero_iff.1 hquiet
    have hno : movesBlock s mask = false := by
      rw [Bool.eq_false_iff, ne_eq, movesBlock_iff]
      exact fun h => h.1 hxfer
    rw [hmain hok, hno, if_neg Bool.false_ne_true, thenStep_live hf, if_neg hx, if_pos hcmd]

/-! ### The request-finish work (R205 to R210) -/

theorem hwErr_iff {e : Err} : hwErr e = true ↔ e = .timeout ∨ e = .protocolViolation := by
  cases e <;> decide

theorem needsAbort_iff {q : Request} : needsAbort q = true ↔
    (∃ c, q.cmd = some c ∧ hwErr c.error = true) ∨ (∃ d, q.data = some d ∧ hwErr d.error = true) ∨
      (∃ d c, q.data = some d ∧ d.stop = some c ∧ hwErr c.error = true) := by
  cases hc : q.cmd <;> cases hd : q.data with
  | none => simp [needsAbort, hc, hd]
  | some d => cases hs : d.stop <;> simp [needsAbort, hc, hd, hs]

theorem exec_workFinish {s : State} (hf : s.fault = none) (h : s.finishPend = true) :
    exec .workFinish s = (requestFinish s).outcome := exec_enabled hf h

theorem requestFinish_idle {s : State} (h : s.req = none) :
    requestFinish s = done { s with finishPend := false } := by
  simp [requestFinish, h]

section
variable {s : State} {q : Request} (hq : s.req = some q)
include hq

theorem requestFinish_clean (h : needsAbort q = false) : requestFinish s =
    done (detachRequest q (cancelTimer { s with finishPend := false })) := by
  simp [requestFinish, hq, h]

theorem requestFinish_aborts (h : needsAbort q = true) : requestFinish s =
    (abortBoth (cancelTimer { s with finishPend := false })).bind fun _ t => done (detachRequest q t) := by
  simp [requestFinish, hq, h]

end

/-- What the detach of the request-finish work reads of the state before the aborts (R206, R236). -/
theorem detachRequest_eq {s u : State} (q : Request) (hq : u.notifyQ = s.notifyQ)
    (hd : u.dutyBroken = s.dutyBroken) (hb : u.breaches = s.breaches) : detachRequest q u = { u with
      req := none, curCmd := none, curData := false, dataEarly := false
      cursor := { blocksLeft := 0, sgIdx := 0, sgOff := 0, accOff := 0 }
      notifyQ := s.notifyQ ++ [if s.dutyBroken then Request.withResult (Config.freeResult s.breaches) q else q]
      dutyBroken := false
      breaches := if s.dutyBroken then s.breaches + 1 else s.breaches } := by
  simp [detachRequest, notified, hq, hd, hb]

/-- Settles O47: without a hardware error the Request is detached at once, else after the two aborts. -/
theorem finishWork : Obligations.FinishWork := by
  unfold Obligations.FinishWork
  refine ⟨fun s hf hpend hq => ?_, fun s q hs hpend hq => ?_⟩
  · rw [exec_workFinish hf hpend, requestFinish_idle hq]
    rfl
  · intro bad aborts cancelled detached
    have hf := (ready_iff.1 hs).1
    have haborts : needsAbort q = true ↔ aborts := by simp only [needsAbort_iff, hwErr_iff]; rfl
    rw [exec_workFinish hf hpend]
    refine ⟨fun hno => ?_, fun hyes => ?_⟩
    · rw [requestFinish_clean hq (Bool.eq_false_iff.2 (mt haborts.1 hno)), Res.outcome_done]
      rfl
    · have hready : ready cancelled = true := hs
      obtain ⟨t, u, ht, hu, -, hready', hboth⟩ := abortBoth_completes hready
      have hmoves : (done u).Moves abortWrites cancelled := hboth ▸ abortBoth_moves cancelled
      have hframe : Agrees abortWrites cancelled u := hmoves.1.frame (ready_iff.1 hs).2.2
      refine ⟨t, u, ht, hu, (ready_iff.1 hready').1, ?_⟩
      rw [requestFinish_aborts hq (haborts.2 hyes)]
      refine (congrArg (fun x => (Res.bind x fun _ t => done (detachRequest q t)).outcome) hboth).trans ?_
      rw [Res.bind_done, Res.outcome_done, detachRequest_eq (s := cancelled) q (hframe .notifyQ (by decide))
        (hframe .dutyBroken (by decide)) (hframe .breaches (by decide))]

end Sys2Proof.Machine

/-! One block through the data port (spec/43_transfer_port.md R175 to R187): the state after the first j bytes of
a read block and of a written block, one step of each byte loop, and the proofs of PioMovesBlock, ReadBlock,
WriteBlock and RoundTrip. -/

namespace Sys2Proof.Machine

/-! ### The cursor's walk, extended at its end (R179) -/

/-- The cursor one byte on, past exhausted entries. -/
def advance (sg : List SgEntry) (c : Cursor) : Cursor :=
  { seek sg c with sgOff := (seek sg c).sgOff + 1 }

theorem cursorAfter_succ (sg : List SgEntry) (n : Nat) (c : Cursor) :
    cursorAfter sg (n + 1) c = cursorAfter sg n (advance sg c) := rfl

theorem cursorAfter_succ_end (sg : List SgEntry) (n : Nat) (c : Cursor) :
    cursorAfter sg (n + 1) c = advance sg (cursorAfter sg n c) := by
  induction n generalizing c with
  | zero => rfl
  | succ n ih => rw [cursorAfter_succ, ih, ← cursorAfter_succ]

theorem advance_accOff (sg : List SgEntry) (c : Cursor) (k : Nat) :
    advance sg { c with accOff := k } = { advance sg c with accOff := k } := rfl

section
variable {p : Params} {sg : List SgEntry}

/-- A list that reaches n + 1 bytes reaches n, and the last address is where the cursor then stands. -/
theorem blockAddrs_succ_end {n : Nat} {c : Cursor} (h : (blockAddrs p sg (n + 1) c).length = n + 1) :
    ∃ a, addrAt p sg (seek sg (cursorAfter sg n c)) = some a ∧ (blockAddrs p sg n c).length = n ∧
      blockAddrs p sg (n + 1) c = blockAddrs p sg n c ++ [a] := by
  induction n generalizing c with
  | zero =>
    cases ha : addrAt p sg (seek sg c) with
    | none => simp [blockAddrs, ha] at h
    | some a => exact ⟨a, ha, rfl, by simp [blockAddrs, ha]⟩
  | succ n ih =>
    cases hb : addrAt p sg (seek sg c) with
    | none => simp [blockAddrs, hb] at h
    | some b =>
      have htail := blockAddrs_succ (n := n + 1) hb
      rw [htail, List.length_cons, Nat.add_right_cancel_iff] at h
      obtain ⟨a, ha, hlen, happ⟩ := ih h
      exact ⟨a, ha, by rw [blockAddrs_succ hb, List.length_cons, hlen],
        by rw [htail, happ, blockAddrs_succ hb]; rfl⟩

end

/-- cur_addr where the list gives an address. -/
theorem curAddr_some {sg : List SgEntry} {s : State} {a : Nat} (h : addrAt s.params sg (seek sg s.cursor) = some a) :
    curAddr sg s = .ok a { s with cursor := seek sg s.cursor } := by
  simp only [curAddr, h]

/-! ### A block read (R177) -/

/-- The bytes a read block stores at these addresses. -/
def readCells (s : State) (addrs : List Nat) : List (Nat × Byte) :=
  addrs.zipIdx.map (fun x => (x.1, portByte s x.2))

theorem readCells_append (s : State) (addrs : List Nat) (a : Nat) :
    readCells s (addrs ++ [a]) = readCells s addrs ++ [(a, portByte s addrs.length)] := by
  simp [readCells, List.zipIdx_append]

theorem readEvents_append (s : State) (addrs : List Nat) (a : Nat) : readEvents s (addrs ++ [a]) =
    readEvents s addrs ++ (if addrs.length % 4 = 0 then [.r32 s.params.offData (drawAt s (addrs.length / 4))] else [])
      ++ [.mw a (portByte s addrs.length)] := by
  simp [readEvents, List.zipIdx_append]

theorem storeAll_append (m : Memory) (cells : List (Nat × Byte)) (a : Nat) (v : Byte) :
    storeAll m (cells ++ [(a, v)]) = Memory.write (storeAll m cells) a v := by
  simp [storeAll]

/-- The state of a read block after its first j bytes: (j + 3) / 4 words were drawn. -/
def blockRead (sg : List SgEntry) (j : Nat) (s : State) : State :=
  let addrs := blockAddrs s.params sg j s.cursor
  { afterDraws ((j + 3) / 4) s with
    cursor := cursorAfter sg j s.cursor
    mem := storeAll s.mem (readCells s addrs)
    win := { s.win with data := if (j + 3) / 4 = 0 then s.win.data else drawAt s ((j + 3) / 4 - 1) }
    trace := s.trace ++ readEvents s addrs }

theorem blockRead_zero (sg : List SgEntry) (s : State) : blockRead sg 0 s = s := by
  simp [blockRead, afterDraws, blockAddrs, cursorAfter, readCells, readEvents, storeAll]

/-- The state in which byte j of a read block is stored: its word was drawn. -/
def wordDrawn (sg : List SgEntry) (j : Nat) (s : State) : State :=
  { blockRead sg j s with
    answers := (afterDraws (j / 4 + 1) s).answers
    draws := (afterDraws (j / 4 + 1) s).draws
    win := { s.win with data := drawAt s (j / 4) }
    trace := s.trace ++ readEvents s (blockAddrs s.params sg j s.cursor) ++
      (if j % 4 = 0 then [.r32 s.params.offData (drawAt s (j / 4))] else []) }

/-- The bytes of the word of byte j not yet taken. -/
def wordRest (s : State) (j : Nat) : Word := drawAt s (j / 4) >>> (8 * (j % 4))

theorem byteOf_wordRest (s : State) (j : Nat) : byteOf (wordRest s j) 0 = portByte s j := by
  ext i hi
  simp [wordRest, portByte, byteOf]

theorem wordRest_succ {s : State} {j : Nat} (h : (j + 1) % 4 ≠ 0) : wordRest s j >>> 8 = wordRest s (j + 1) := by
  have hdiv : (j + 1) / 4 = j / 4 := by omega
  have hmod : 8 * ((j + 1) % 4) = 8 * (j % 4) + 8 := by omega
  rw [wordRest, wordRest, hdiv, hmod, BitVec.shiftRight_add]

section
variable {s : State} {sg : List SgEntry} (hs : ready s = true)
include hs

/-- R177: a word is drawn where none of its bytes is left. -/
theorem refill_blockRead {j : Nat} {acc : Word} (hacc : j % 4 ≠ 0 → acc = wordRest s j) :
    refill acc ((4 - j % 4) % 4) (blockRead sg j s) = .ok (wordRest s j, 4 - j % 4) (wordDrawn sg j s) := by
  obtain ⟨-, ha, hp⟩ := ready_iff.1 hs
  by_cases hj : j % 4 = 0
  · have hword : (j + 3) / 4 = j / 4 := by omega
    have hdrawn : drawAt (blockRead sg j s) 0 = drawAt s (j / 4) := by
      rw [← hword]
      exact drawAt_afterDraws _ 0 s
    have hnext := afterDraws_afterDraws (j / 4) 1 s
    simp only [afterDraws, State.mk.injEq] at hnext
    rw [refill, if_pos (by omega), readReg32_ok (s := blockRead sg j s) hp ha .data rfl rfl,
      (show32_drawn _).2.2.2.2.2, hdrawn, Res.bind_ok]
    simp only [wordRest, hj, wordDrawn, blockRead, record, afterDraws, hword, hnext, regOff, if_true]
    rfl
  · have hword : (j + 3) / 4 = j / 4 + 1 := by omega
    rw [refill, if_neg (by omega), hacc hj, Nat.mod_eq_of_lt (by omega : 4 - j % 4 < 4)]
    simp [wordDrawn, blockRead, afterDraws, hword, hj]

end

/-- R177: storing byte j leads to the state after j + 1 bytes. -/
theorem blockRead_succ {s : State} {sg : List SgEntry} {j a : Nat}
    (hlen : (blockAddrs s.params sg j s.cursor).length = j)
    (happ : blockAddrs s.params sg (j + 1) s.cursor = blockAddrs s.params sg j s.cursor ++ [a]) :
    bumpOff (memWrite a (portByte s j) { wordDrawn sg j s with cursor := seek sg (cursorAfter sg j s.cursor) }) =
      blockRead sg (j + 1) s := by
  have hword : (j + 1 + 3) / 4 = j / 4 + 1 := by omega
  simp only [blockRead, happ, readCells_append, readEvents_append, storeAll_append, hlen, hword,
    cursorAfter_succ_end, wordDrawn, bumpOff, memWrite, record, afterDraws, advance]
  simp

theorem length_blockAddrs_prefix {p : Params} {sg : List SgEntry} {c : Cursor} {j n : Nat}
    (h : (blockAddrs p sg (j + n) c).length = j + n) : (blockAddrs p sg j c).length = j := by
  induction n with
  | zero => exact h
  | succ n ih =>
    obtain ⟨_, -, hlen, -⟩ := blockAddrs_succ_end h
    exact ih hlen

/-- R177: from the state after j bytes the byte loop leads to the state after n more. -/
theorem readBytes_blockRead {s : State} {sg : List SgEntry} (hs : ready s = true) {n j : Nat} {acc : Word}
    (hlen : (blockAddrs s.params sg (j + n) s.cursor).length = j + n)
    (hacc : j % 4 ≠ 0 → acc = wordRest s j) :
    readBytes sg n acc ((4 - j % 4) % 4) (blockRead sg j s) = done (blockRead sg (j + n) s) := by
  induction n generalizing j acc with
  | zero => rfl
  | succ n ih =>
    have hj : j + (n + 1) = j + 1 + n := by omega
    rw [hj] at hlen
    obtain ⟨a, haddr, hpre, happ⟩ := blockAddrs_succ_end (length_blockAddrs_prefix hlen)
    have hat : curAddr sg (wordDrawn sg j s) =
        .ok a { wordDrawn sg j s with cursor := seek sg (cursorAfter sg j s.cursor) } := curAddr_some haddr
    have havail : 4 - j % 4 - 1 = (4 - (j + 1) % 4) % 4 := by omega
    rw [readBytes, refill_blockRead hs hacc]
    simp only [Res.bind_ok, hat, byteOf_wordRest, blockRead_succ hpre happ, havail]
    rw [hj]
    exact ih hlen wordRest_succ

/-! ### A block written (R178) -/

/-- Byte b put in an empty lane k takes that lane. -/
theorem intoLane_wordOf (a0 a1 a2 b : Byte) :
    intoLane (wordOf 0 0 0 0) 0 b = wordOf b 0 0 0 ∧ intoLane (wordOf a0 0 0 0) 1 b = wordOf a0 b 0 0 ∧
    intoLane (wordOf a0 a1 0 0) 2 b = wordOf a0 a1 b 0 ∧ intoLane (wordOf a0 a1 a2 0) 3 b = wordOf a0 a1 a2 b := by
  refine ⟨?_, ?_, ?_, ?_⟩ <;> ext i hi <;>
    simp only [intoLane, wordOf, BitVec.getElem_append, BitVec.getElem_or, BitVec.getElem_shiftLeft,
      BitVec.getElem_setWidth] <;> grind

theorem portWord_append_lt {bytes : List Byte} {k : Nat} (b : Byte) (h : 4 * k + 3 < bytes.length) :
    portWord (bytes ++ [b]) k = portWord bytes k := by
  have hget : ∀ i < bytes.length, (bytes ++ [b]).getD i 0 = bytes.getD i 0 := fun i hi => List.getD_append _ _ _ _ hi
  simp only [portWord, hget _ h, hget (4 * k) (by omega), hget (4 * k + 1) (by omega), hget (4 * k + 2) (by omega)]

theorem portWord_end {bytes : List Byte} {k : Nat} (h : bytes.length ≤ 4 * k) : portWord bytes k = 0 := by
  have hget : ∀ i, 4 * k ≤ i → bytes.getD i 0 = 0 := fun i hi => List.getD_eq_default _ _ (h.trans hi)
  simp only [portWord, hget (4 * k) (by omega), hget (4 * k + 1) (by omega), hget (4 * k + 2) (by omega),
    hget (4 * k + 3) (by omega)]
  rfl

theorem intoLane_portWord (bytes : List Byte) (b : Byte) :
    intoLane (portWord bytes (bytes.length / 4)) (bytes.length % 4) b = portWord (bytes ++ [b]) (bytes.length / 4) := by
  have hlt : ∀ i < bytes.length, (bytes ++ [b]).getD i 0 = bytes.getD i 0 := fun i hi => List.getD_append _ _ _ _ hi
  have hat : ∀ i, i = bytes.length → (bytes ++ [b]).getD i 0 = b := fun i hi => by simp [hi]
  have hgt : ∀ i, bytes.length < i → (bytes ++ [b]).getD i 0 = 0 := fun i hi =>
    List.getD_eq_default _ _ (by simpa using hi)
  have hge : ∀ i, bytes.length ≤ i → bytes.getD i 0 = 0 := fun i hi => List.getD_eq_default _ _ hi
  obtain ⟨h0, h1, h2, h3⟩ := intoLane_wordOf (bytes.getD (4 * (bytes.length / 4)) 0)
    (bytes.getD (4 * (bytes.length / 4) + 1) 0) (bytes.getD (4 * (bytes.length / 4) + 2) 0) b
  have hr : bytes.length % 4 = 0 ∨ bytes.length % 4 = 1 ∨ bytes.length % 4 = 2 ∨ bytes.length % 4 = 3 := by omega
  unfold portWord
  obtain hr | hr | hr | hr := hr
  · rw [hr, hge _ (by omega), hge _ (by omega), hge _ (by omega), hge _ (by omega), hat _ (by omega),
      hgt _ (by omega), hgt _ (by omega), hgt _ (by omega), h0]
  · rw [hr, hge (4 * (bytes.length / 4) + 1) (by omega), hge (4 * (bytes.length / 4) + 2) (by omega),
      hge (4 * (bytes.length / 4) + 3) (by omega), hlt _ (by omega), hat _ (by omega), hgt _ (by omega),
      hgt _ (by omega), h1]
  · rw [hr, hge (4 * (bytes.length / 4) + 2) (by omega), hge (4 * (bytes.length / 4) + 3) (by omega),
      hlt _ (by omega), hlt _ (by omega), hat _ (by omega), hgt _ (by omega), h2]
  · rw [hr, hge (4 * (bytes.length / 4) + 3) (by omega), hlt _ (by omega), hlt _ (by omega), hlt _ (by omega),
      hat _ (by omega), h3]

/-- The events of a block's bytes and full words, its partial word left out. -/
def wordEvents (s : State) (addrs : List Nat) : List Event :=
  (addrs.zipIdx.map (fun x => [Event.mr x.1 (Memory.read s.mem x.1)]
    ++ (if x.2 % 4 = 3 then [Event.w32 s.params.offData (portWord (addrs.map (Memory.read s.mem)) (x.2 / 4))]
      else []))).flatten

theorem wordEvents_append (s : State) (addrs : List Nat) (a : Nat) : wordEvents s (addrs ++ [a]) =
    wordEvents s addrs ++ [.mr a (Memory.read s.mem a)] ++ (if addrs.length % 4 = 3 then
      [.w32 s.params.offData (portWord ((addrs ++ [a]).map (Memory.read s.mem)) (addrs.length / 4))] else []) := by
  have hfull : ∀ x ∈ addrs.zipIdx, x.2 % 4 = 3 → portWord ((addrs ++ [a]).map (Memory.read s.mem)) (x.2 / 4) =
      portWord (addrs.map (Memory.read s.mem)) (x.2 / 4) := fun x hx hlast => by
    have hlt : x.2 < addrs.length := by simpa using List.snd_lt_of_mem_zipIdx hx
    rw [List.map_append, List.map_singleton, portWord_append_lt _ (by rw [List.length_map]; omega)]
  have hmap : addrs.zipIdx.map (fun x => [Event.mr x.1 (Memory.read s.mem x.1)] ++ (if x.2 % 4 = 3 then
      [Event.w32 s.params.offData (portWord ((addrs ++ [a]).map (Memory.read s.mem)) (x.2 / 4))] else [])) =
      addrs.zipIdx.map (fun x => [Event.mr x.1 (Memory.read s.mem x.1)] ++ (if x.2 % 4 = 3 then
        [Event.w32 s.params.offData (portWord (addrs.map (Memory.read s.mem)) (x.2 / 4))] else [])) :=
    List.map_congr_left fun x hx => by
      split
      next hlast => rw [hfull x hx hlast]
      next => rfl
  rw [wordEvents, List.zipIdx_append, List.map_append, hmap, List.flatten_append, Nat.zero_add]
  simp [wordEvents]

theorem writeEvents_eq (s : State) (addrs : List Nat) : writeEvents s addrs = wordEvents s addrs ++
    (if addrs.length % 4 = 0 then []
      else [.w32 s.params.offData (portWord (addrs.map (Memory.read s.mem)) (addrs.length / 4))]) := rfl

/-- The bytes of the first j addresses of a block. -/
def blockBytes (sg : List SgEntry) (j : Nat) (s : State) : List Byte :=
  (blockAddrs s.params sg j s.cursor).map (Memory.read s.mem)

/-- The state of a written block after its first j bytes: j / 4 words were written. -/
def blockWritten (sg : List SgEntry) (j : Nat) (s : State) : State :=
  { s with
    cursor := { cursorAfter sg j s.cursor with accOff := j % 4 }
    win := { s.win with data := if j / 4 = 0 then s.win.data else portWord (blockBytes sg j s) (j / 4 - 1) }
    trace := s.trace ++ wordEvents s (blockAddrs s.params sg j s.cursor) }

theorem blockWritten_zero (sg : List SgEntry) (s : State) : blockWritten sg 0 s = setAccOff 0 s := by
  simp [blockWritten, setAccOff, cursorAfter, blockAddrs, wordEvents]

/-- The state in which byte j of a written block is held, before a full word is written. -/
def byteHeld (sg : List SgEntry) (j a : Nat) (s : State) : State :=
  { blockWritten sg j s with
    cursor := { cursorAfter sg (j + 1) s.cursor with accOff := j % 4 + 1 }
    trace := s.trace ++ wordEvents s (blockAddrs s.params sg j s.cursor) ++ [.mr a (Memory.read s.mem a)] }

section
variable {s : State} {sg : List SgEntry} {j a : Nat} (hs : ready s = true)
  (hlen : (blockAddrs s.params sg j s.cursor).length = j)
  (happ : blockAddrs s.params sg (j + 1) s.cursor = blockAddrs s.params sg j s.cursor ++ [a])
include hlen happ

theorem intoLane_blockBytes : intoLane (portWord (blockBytes sg j s) (j / 4)) (j % 4) (Memory.read s.mem a) =
    portWord (blockBytes sg (j + 1) s) (j / 4) := by
  have hbytes : (blockBytes sg j s).length = j := by rw [blockBytes, List.length_map, hlen]
  have h := intoLane_portWord (blockBytes sg j s) (Memory.read s.mem a)
  rw [hbytes] at h
  rw [h, blockBytes, blockBytes, happ, List.map_append, List.map_singleton]

include hs

/-- R178: a word is written as soon as it is full, which leads to the state after j + 1 bytes. -/
theorem flushFull_byteHeld : flushFull (portWord (blockBytes sg (j + 1) s) (j / 4)) (byteHeld sg j a s) =
    .ok (portWord (blockBytes sg (j + 1) s) ((j + 1) / 4)) (blockWritten sg (j + 1) s) := by
  obtain ⟨-, ha, hp⟩ := ready_iff.1 hs
  have hbytes : (blockBytes sg (j + 1) s).length = j + 1 := by simp [blockBytes, happ, hlen]
  have hevents := wordEvents_append s (blockAddrs s.params sg j s.cursor) a
  rw [← happ, hlen] at hevents
  by_cases hj : j % 4 = 3
  · have hdiv : (j + 1) / 4 = j / 4 + 1 := by omega
    have hmod : (j + 1) % 4 = 0 := by omega
    have hend : portWord (blockBytes sg (j + 1) s) (j / 4 + 1) = 0 := portWord_end (by omega)
    rw [flushFull, if_pos (by simp [byteHeld, hj]), writeReg32_ok (s := byteHeld sg j a s) hp ha .data rfl rfl,
      Res.bind_done, hdiv, hend]
    simp [blockWritten, byteHeld, setAccOff, record, latch32, regOff, hevents, hj, hdiv, hmod, blockBytes]
  · have hdiv : (j + 1) / 4 = j / 4 := by omega
    have hmod : (j + 1) % 4 = j % 4 + 1 := by omega
    have hfull : ¬ j % 4 + 1 = 4 := by omega
    have hdata : j / 4 ≠ 0 →
        portWord (blockBytes sg j s) (j / 4 - 1) = portWord (blockBytes sg (j + 1) s) (j / 4 - 1) := fun h0 => by
      rw [blockBytes, blockBytes, happ, List.map_append, List.map_singleton,
        portWord_append_lt _ (by rw [List.length_map, hlen]; omega)]
    rw [flushFull, if_neg (by simpa [byteHeld] using hfull), hdiv]
    simp only [blockWritten, byteHeld, hevents, hj, hdiv, hmod, if_false, List.append_nil, List.append_assoc]
    split
    next => rfl
    next h0 => rw [hdata h0]

/-- R178: one turn of the byte loop. -/
theorem writeBytes_succ {n : Nat} (haddr : addrAt s.params sg (seek sg (cursorAfter sg j s.cursor)) = some a) :
    writeBytes sg (n + 1) (portWord (blockBytes sg j s) (j / 4)) (blockWritten sg j s) =
      writeBytes sg n (portWord (blockBytes sg (j + 1) s) ((j + 1) / 4)) (blockWritten sg (j + 1) s) := by
  have hat : curAddr sg (blockWritten sg j s) =
      .ok a { blockWritten sg j s with cursor := seek sg (blockWritten sg j s).cursor } := curAddr_some haddr
  have hheld : setAccOff (j % 4 + 1) (bumpOff (memRead a
      { blockWritten sg j s with cursor := seek sg (blockWritten sg j s).cursor }).2) = byteHeld sg j a s := by
    rw [byteHeld, cursorAfter_succ_end]
    rfl
  have hflush := flushFull_byteHeld hs hlen happ
  rw [← intoLane_blockBytes hlen happ, ← hheld] at hflush
  rw [writeBytes, hat]
  refine (congrArg (fun x => Res.bind x fun acc t => writeBytes sg n acc t) hflush).trans ?_
  rfl

end

/-- R178: from the state after j bytes the byte loop leads to the state after n more. -/
theorem writeBytes_blockWritten {s : State} {sg : List SgEntry} (hs : ready s = true) {n j : Nat}
    (hlen : (blockAddrs s.params sg (j + n) s.cursor).length = j + n) :
    writeBytes sg n (portWord (blockBytes sg j s) (j / 4)) (blockWritten sg j s) =
      .ok (portWord (blockBytes sg (j + n) s) ((j + n) / 4)) (blockWritten sg (j + n) s) := by
  induction n generalizing j with
  | zero => rfl
  | succ n ih =>
    have hj : j + (n + 1) = j + 1 + n := by omega
    rw [hj] at hlen
    obtain ⟨a, haddr, hpre, happ⟩ := blockAddrs_succ_end (length_blockAddrs_prefix hlen)
    rw [writeBytes_succ hs hpre happ haddr, ih hlen, hj]

/-- R178: a block the list reaches is written whole, its partial word last. -/
theorem writeBlock_ok {s : State} {sg : List SgEntry} {n : Nat} (hs : ready s = true)
    (hlen : (blockAddrs s.params sg n s.cursor).length = n) : writeBlock sg n s = done { s with
      cursor := { cursorAfter sg n s.cursor with accOff := 0 }
      win := { s.win with data :=
        if (n + 3) / 4 = 0 then s.win.data else portWord (blockBytes sg n s) ((n + 3) / 4 - 1) }
      trace := s.trace ++ writeEvents s (blockAddrs s.params sg n s.cursor) } := by
  obtain ⟨-, ha, hp⟩ := ready_iff.1 hs
  have hloop := writeBytes_blockWritten (j := 0) hs (by rw [Nat.zero_add]; exact hlen)
  have hstart : portWord (blockBytes sg 0 s) (0 / 4) = 0 := portWord_end (Nat.zero_le _)
  rw [hstart, blockWritten_zero, Nat.zero_add] at hloop
  rw [writeBlock, hloop, Res.bind_ok, writeEvents_eq, hlen]
  by_cases hn : n % 4 = 0
  · have hwords : (n + 3) / 4 = n / 4 := by omega
    rw [if_neg (by simp [blockWritten, hn]), Res.bind_done]
    simp [blockWritten, setAccOff, hn, hwords]
  · have hwords : (n + 3) / 4 = n / 4 + 1 := by omega
    rw [if_pos (by simpa [blockWritten] using Nat.pos_of_ne_zero hn),
      writeReg32_ok (s := blockWritten sg n s) hp ha .data rfl rfl, Res.bind_done]
    simp [blockWritten, setAccOff, hn, hwords, record, latch32, regOff, blockBytes]

/-- R177: a block the list reaches is read whole. -/
theorem readBlock_ok {s : State} {sg : List SgEntry} {n : Nat} (hs : ready s = true)
    (hlen : (blockAddrs s.params sg n s.cursor).length = n) :
    readBlock sg n s = done (setAccOff 0 (blockRead sg n s)) := by
  have hloop := readBytes_blockRead (j := 0) (acc := 0) hs (by rw [Nat.zero_add]; exact hlen) (absurd rfl)
  rw [blockRead_zero, Nat.zero_add] at hloop
  rw [readBlock]
  exact congrArg (fun x => Res.bind x fun _ t => done (setAccOff 0 t)) hloop

/-- Settles O36: the byte loop from the first byte to the last, and then the accumulator is empty. -/
theorem readBlockMoves : Obligations.ReadBlock := by
  unfold Obligations.ReadBlock
  intro s d hs hd hr n words addrs
  rw [exec_pioReadBlock (ready_iff.1 hs).1 hd, readBlock_ok hs (reaches_eq_true_iff.1 hr)]
  rfl

/-- Settles O37: the byte loop, and then the partial word. -/
theorem writeBlockMoves : Obligations.WriteBlock := by
  unfold Obligations.WriteBlock
  intro s d hs hd hr n words addrs bytes
  rw [exec_pioWriteBlock (ready_iff.1 hs).1 hd, writeBlock_ok hs (reaches_eq_true_iff.1 hr)]
  rfl

/-! ### PIO (R175, R180) -/

theorem transferPio_zero {s : State} (h : s.cursor.blocksLeft = 0) : transferPio s = done s := by
  simp [transferPio, h]

theorem transferPio_block {s t : State} {d : Data} (h : 0 < s.cursor.blocksLeft) (hd : dataOf s = some d)
    (hmove : moveBlock d s = done t) : transferPio s =
      done { t with cursor := { t.cursor with blocksLeft := t.cursor.blocksLeft - 1 } } := by
  simp [transferPio, Nat.ne_of_gt h, hd, hmove]

theorem cursorAfter_blocksLeft (sg : List SgEntry) (n : Nat) (c : Cursor) :
    (cursorAfter sg n c).blocksLeft = c.blocksLeft := by
  induction n generalizing c with
  | zero => rfl
  | succ n ih => rw [cursorAfter_succ, ih]; rfl

/-- A block the list reaches moves whole in either direction: the cursor passes its bytes, no fault is raised. -/
theorem moveBlock_ok {s : State} {d : Data} (hs : ready s = true) (hr : reaches s d = true) :
    ∃ t, moveBlock d s = done t ∧ t.fault = none ∧
      t.cursor = { cursorAfter d.sg d.blksz s.cursor with accOff := 0 } := by
  have hlen := reaches_eq_true_iff.1 hr
  have hf := (ready_iff.1 hs).1
  unfold moveBlock
  split
  · exact ⟨_, readBlock_ok hs hlen, hf, rfl⟩
  · exact ⟨_, writeBlock_ok hs hlen, hf, rfl⟩

theorem exec_moveBlock {s : State} {d : Data} (hf : s.fault = none) (hd : dataOf s = some d) :
    exec (if d.dir = .read then .pioReadBlock else .pioWriteBlock) s = (moveBlock d s).outcome := by
  cases hdir : d.dir with
  | read => simp [exec_pioReadBlock hf hd, moveBlock, hdir]
  | write => simp [exec_pioWriteBlock hf hd, moveBlock, hdir]

/-- Settles O35: the block moves in the object's direction, and is counted. -/
theorem pioMovesBlock : Obligations.PioMovesBlock := by
  unfold Obligations.PioMovesBlock
  intro s hf
  rw [exec_pio hf]
  refine ⟨fun h0 => by rw [transferPio_zero h0]; rfl, fun d hpos hd hr hs => ?_⟩
  obtain ⟨t, hmove, ht, hcursor⟩ := moveBlock_ok hs hr
  have hleft : t.cursor.blocksLeft = s.cursor.blocksLeft := by
    rw [hcursor]
    exact cursorAfter_blocksLeft _ _ _
  refine ⟨t, by rw [exec_moveBlock hf hd, hmove, Res.outcome_done], ht, ?_⟩
  rw [transferPio_block hpos hd hmove, hleft, Res.outcome_done]

/-! ### Round trip (R186) -/

theorem storeAll_cons (m : Memory) (a : Nat) (v : Byte) (cells : List (Nat × Byte)) :
    storeAll m ((a, v) :: cells) = storeAll (Memory.write m a v) cells := rfl

theorem read_storeAll_other {m : Memory} {cells : List (Nat × Byte)} {x : Nat} (h : x ∉ cells.map Prod.fst) :
    Memory.read (storeAll m cells) x = Memory.read m x := by
  induction cells generalizing m with
  | nil => rfl
  | cons cell cells ih =>
    obtain ⟨a, v⟩ := cell
    simp only [List.map_cons, List.mem_cons, not_or] at h
    rw [storeAll_cons, ih h.2, Memory.read_write_other v h.1]

/-- Bytes stored at distinct addresses are read back. -/
theorem read_storeAll {m : Memory} (hm : Memory.wf m = true) {cells : List (Nat × Byte)}
    (h : (cells.map Prod.fst).Nodup) :
    (cells.map Prod.fst).map (Memory.read (storeAll m cells)) = cells.map Prod.snd := by
  induction cells generalizing m with
  | nil => rfl
  | cons cell cells ih =>
    obtain ⟨a, v⟩ := cell
    obtain ⟨hnot, hrest⟩ := List.nodup_cons.1 h
    have htail := ih (Memory.write_wf hm a v) hrest
    simp only [List.map_cons, storeAll_cons, htail, read_storeAll_other hnot, Memory.read_write_self hm]

theorem readCells_addrs (s : State) (addrs : List Nat) : (readCells s addrs).map Prod.fst = addrs := by
  simp [readCells, Function.comp_def, List.zipIdx_map_fst]

/-- Byte j of a block is lane j mod 4 of its word j div 4. -/
theorem byteOf_portWord (bytes : List Byte) (j : Nat) : byteOf (portWord bytes (j / 4)) (j % 4) = bytes.getD j 0 := by
  obtain ⟨h0, h1, h2, h3⟩ := byteOf_wordOf (bytes.getD (4 * (j / 4)) 0) (bytes.getD (4 * (j / 4) + 1) 0)
    (bytes.getD (4 * (j / 4) + 2) 0) (bytes.getD (4 * (j / 4) + 3) 0)
  have hlane : j % 4 = 0 ∨ j % 4 = 1 ∨ j % 4 = 2 ∨ j % 4 = 3 := by omega
  have hj : 4 * (j / 4) + j % 4 = j := by omega
  obtain h | h | h | h := hlane <;> rw [h] at hj ⊢
  · rw [portWord, h0, ← hj, Nat.add_zero, Nat.mul_div_cancel_left _ (by omega)]
  · rw [portWord, h1, hj]
  · rw [portWord, h2, hj]
  · rw [portWord, h3, hj]

theorem dataWords_append (p : Params) (es es' : List Event) :
    dataWords p (es ++ es') = dataWords p es ++ dataWords p es' := List.filterMap_append

theorem dataWords_word (p : Params) (v : Word) : dataWords p [.w32 p.offData v] = [v] := by
  simp [dataWords]

/-- The full words of a written block, in order. -/
theorem dataWords_wordEvents (s : State) (addrs : List Nat) : dataWords s.params (wordEvents s addrs) =
    (List.range (addrs.length / 4)).map (portWord (addrs.map (Memory.read s.mem))) := by
  induction addrs using List.reverseRecOn with
  | nil => rfl
  | append_singleton addrs a ih =>
    have hprefix : (List.range (addrs.length / 4)).map (portWord ((addrs ++ [a]).map (Memory.read s.mem))) =
        (List.range (addrs.length / 4)).map (portWord (addrs.map (Memory.read s.mem))) :=
      List.map_congr_left fun k hk => by
        have hlt : k < addrs.length / 4 := List.mem_range.1 hk
        rw [List.map_append, List.map_singleton, portWord_append_lt _ (by rw [List.length_map]; omega)]
    have hread : dataWords s.params [.mr a (Memory.read s.mem a)] = [] := rfl
    rw [wordEvents_append, dataWords_append, dataWords_append, ih, hread, List.append_nil, List.length_append,
      List.length_singleton]
    by_cases hj : addrs.length % 4 = 3
    · have hdiv : (addrs.length + 1) / 4 = addrs.length / 4 + 1 := by omega
      rw [if_pos hj, hdiv, dataWords_word, List.range_succ, List.map_append (f := portWord _), hprefix,
        List.map_singleton]
    · have hdiv : (addrs.length + 1) / 4 = addrs.length / 4 := by omega
      rw [if_neg hj, hdiv, hprefix]
      exact List.append_nil _

/-- The words of a written block, in order, its partial word last. -/
theorem dataWords_writeEvents (s : State) (addrs : List Nat) : dataWords s.params (writeEvents s addrs) =
    (List.range ((addrs.length + 3) / 4)).map (portWord (addrs.map (Memory.read s.mem))) := by
  rw [writeEvents_eq, dataWords_append, dataWords_wordEvents]
  by_cases hn : addrs.length % 4 = 0
  · have hwords : (addrs.length + 3) / 4 = addrs.length / 4 := by omega
    rw [if_pos hn, hwords]
    exact List.append_nil _
  · have hwords : (addrs.length + 3) / 4 = addrs.length / 4 + 1 := by omega
    rw [if_neg hn, hwords, dataWords_word, List.range_succ, List.map_append, List.map_singleton]

/-- Where the settled draws are the words of a block, a block read takes the block's bytes. -/
theorem readCells_bytes {s : State} {bytes : List Byte}
    (hwords : s.answers = (List.range ((bytes.length + 3) / 4)).map (portWord bytes)) {addrs : List Nat}
    (hlen : addrs.length = bytes.length) : (readCells s addrs).map Prod.snd = bytes := by
  refine List.ext_getElem (by simp [readCells, hlen]) fun j h h' => ?_
  have hdraw : drawAt s (j / 4) = portWord bytes (j / 4) := by
    have hlt : j / 4 < (bytes.length + 3) / 4 := by omega
    simp [drawAt, hwords, hlt]
  simp [readCells, portByte, hdraw, byteOf_portWord, h']

/-- Settles O39: the words written are the draws, whose bytes the read stores at its distinct addresses. -/
theorem roundTrip : Obligations.RoundTrip := by
  unfold Obligations.RoundTrip
  intro s t s' t' d d' hs hs' hd hd' hsize hr hr' hmem hwrite hanswers hread from' to' hnodup
  have hfrom : from'.length = d.blksz := reaches_eq_true_iff.1 hr
  have hto : to'.length = d'.blksz := reaches_eq_true_iff.1 hr'
  have hlen : to'.length = (from'.map (Memory.read s.mem)).length := by rw [List.length_map, hto, hfrom, hsize]
  have hevents : t.trace.drop s.trace.length = writeEvents s from' := by
    rw [writeBlockMoves s d hs hd hr] at hwrite
    cases hwrite
    exact List.drop_left
  have hstored : t'.mem = storeAll s'.mem (readCells s' to') := by
    rw [readBlockMoves s' d' hs' hd' hr'] at hread
    cases hread
    rfl
  rw [hevents, dataWords_writeEvents] at hanswers
  have hbytes := readCells_bytes (addrs := to') (by rw [List.length_map]; exact hanswers) hlen
  have hwf : Memory.wf s'.mem = true := (Bool.and_eq_true_iff.1 hmem).1
  have hback := read_storeAll hwf (cells := readCells s' to') (by rw [readCells_addrs]; exact hnodup)
  rw [readCells_addrs, hbytes] at hback
  rw [hstored, hback]

end Sys2Proof.Machine

/-! One status word at a time (spec/30_encoding.md section 3, spec/44_dispatcher.md R190 to R196; log 14): the
dispatch of a word whose bits lie in one category, the words of one bit, and the proofs of QuietWords,
CommandWords and DataWords. -/

namespace Sys2Proof.Machine

/-! ### Words within one category -/

/-- The state after a status word, raised where INT_STATUS was clear, was read and written back whole. -/
def taken (w : Word) (s : State) : State :=
  { s with trace := s.trace ++ [.r32 s.params.offIntStatus w, .w32 s.params.offIntStatus w] }

theorem and_eq_zero_of_disjoint {w a b : Word} (hw : w &&& ~~~a = 0) (hab : a &&& b = 0) : w &&& b = 0 := by
  rw [← and_eq_self_of_and_not_eq_zero hw, BitVec.and_assoc, hab]
  exact BitVec.and_zero

theorem thenStep_next_right (a : Answer) : thenStep a .next = a := by
  cases a with
  | next t => simp [thenStep]
  | fault f => rfl
  | refused r => rfl

theorem acknowledge_none {m : Word} (hm : m = 0) (handler : State → Res Unit) (s : State) :
    acknowledge m handler s = done s := by rw [hm, acknowledge_zero]

/-- The parts of a word of card-presence bits. -/
theorem parts_of_cardBits {p : Params} {w : Word} (hm : w &&& ~~~cardMask p = 0) :
    cardPart p w = w ∧ cmdPart p w = 0 ∧ dataPart p w = 0 ∧ restPart p w = 0 := by
  simp [cardPart, cmdPart, dataPart, restPart, hm, and_eq_self_of_and_not_eq_zero hm]

/-- The parts of a word of data bits. -/
theorem parts_of_dataBits {p : Params} {w : Word} (hp : paramsOk p = true) (hm : w &&& ~~~dataMask p = 0) :
    cardPart p w = 0 ∧ cmdPart p w = 0 ∧ dataPart p w = w ∧ restPart p w = 0 := by
  have hboth := and_eq_zero_of_disjoint hm (dataMask_and_cardMask_or_cmdMask hp)
  rw [BitVec.and_or_distrib_left] at hboth
  obtain ⟨hcard, hcmd⟩ := BitVec.or_eq_zero_iff.1 hboth
  have hdata := and_eq_self_of_and_not_eq_zero hm
  refine ⟨hcard, (cmdPart_eq hp w).trans hcmd, (dataPart_eq hp w).trans hdata, ?_⟩
  simp [restPart, and_not_eq_self_of_and_eq_zero hcard, and_not_eq_self_of_and_eq_zero hcmd, hm]

/-- The parts of a word with no bit of the three categories. -/
theorem parts_of_restBits {p : Params} {w : Word} (hm : w &&& (cardMask p ||| cmdMask p ||| dataMask p) = 0) :
    cardPart p w = 0 ∧ cmdPart p w = 0 ∧ dataPart p w = 0 ∧ restPart p w = w := by
  have hrest := (restPart_eq p w).trans (and_not_eq_self_of_and_eq_zero hm)
  rw [BitVec.and_or_distrib_left, BitVec.and_or_distrib_left] at hm
  obtain ⟨hfront, hdata⟩ := BitVec.or_eq_zero_iff.1 hm
  obtain ⟨hcard, hcmd⟩ := BitVec.or_eq_zero_iff.1 hfront
  refine ⟨hcard, ?_, ?_, hrest⟩
  · simp [cmdPart, and_not_eq_self_of_and_eq_zero hcard, hcmd]
  · simp [dataPart, and_not_eq_self_of_and_eq_zero hcard, and_not_eq_self_of_and_eq_zero hcmd, hdata]

theorem restPart_of_dataBits {p : Params} {w : Word} (hp : paramsOk p = true) (hm : w &&& ~~~dataMask p = 0) :
    restPart p w = 0 := (parts_of_dataBits hp hm).2.2.2

section
variable {s : State} {w : Word}

/-- Where a word has no card-presence and no command bit, the first two categories do nothing. -/
theorem dispatchFront_none (hcard : cardPart s.params w = 0) (hcmd : cmdPart s.params w = 0) :
    dispatchFront w s = done s := by
  rw [dispatchFront, acknowledge_none hcard, Res.bind_done, acknowledge_none hcmd]

/-- Where it has no data bit and no other left, the last two do nothing. -/
theorem dispatchBack_none (hdata : dataPart s.params w = 0) (hrest : restPart s.params w = 0) :
    dispatchBack w s = done s := by
  rw [dispatchBack, acknowledge_none hdata, Res.bind_done, acknowledge_none hrest]

variable (hs : ready s = true) (hw0 : w ≠ 0)

theorem dispatchBack_of_cardBits (hm : w &&& ~~~cardMask s.params = 0) : dispatchBack w s = done s := by
  obtain ⟨-, -, hdata, hrest⟩ := parts_of_cardBits hm
  exact dispatchBack_none hdata hrest

theorem dispatchFront_of_restBits (hm : w &&& (cardMask s.params ||| cmdMask s.params ||| dataMask s.params) = 0) :
    dispatchFront w s = done s := by
  obtain ⟨hcard, hcmd, -, -⟩ := parts_of_restBits hm
  exact dispatchFront_none hcard hcmd

include hs

theorem dispatchFront_of_dataBits (hm : w &&& ~~~dataMask s.params = 0) : dispatchFront w s = done s := by
  obtain ⟨hcard, hcmd, -, -⟩ := parts_of_dataBits (ready_iff.1 hs).2.2 hm
  exact dispatchFront_none hcard hcmd

include hw0

theorem dispatchFront_of_cardBits (hm : w &&& ~~~cardMask s.params = 0) :
    dispatchFront w s = done (scheduleWork .card (acknowledged w s)) := by
  obtain ⟨hcard, hcmd, -, -⟩ := parts_of_cardBits hm
  have hnext : cmdPart (scheduleWork .card (acknowledged w s)).params w = 0 := hcmd
  rw [dispatchFront, hcard, acknowledge_bits hs hw0, Res.bind_done, acknowledge_none hnext]

theorem dispatchBack_of_dataBits (hm : w &&& ~~~dataMask s.params = 0) : dispatchBack w s =
    (onDataInterrupt w (acknowledged w s)).bind fun _ t =>
      acknowledge (restPart t.params w) (logRemaining (restPart t.params w)) t := by
  obtain ⟨-, -, hdata, -⟩ := parts_of_dataBits (ready_iff.1 hs).2.2 hm
  rw [dispatchBack, hdata, acknowledge_bits hs hw0]

theorem dispatchBack_of_restBits (hm : w &&& (cardMask s.params ||| cmdMask s.params ||| dataMask s.params) = 0) :
    dispatchBack w s = logRemaining w (acknowledged w s) := by
  obtain ⟨-, -, hdata, hrest⟩ := parts_of_restBits hm
  rw [dispatchBack, acknowledge_none hdata, Res.bind_done, hrest, acknowledge_bits hs hw0]

end

/-- Bits raised in a clear register and written back leave it clear. -/
theorem window_written_raised {win : Window} (h : win.intStatus = 0) (w : Word) :
    { win with intStatus := (win.intStatus ||| w) &&& ~~~w } = win := by
  have hclear : (win.intStatus ||| w) &&& ~~~w = win.intStatus := by rw [h]; simp
  rw [hclear]

section
variable {i : Instr} {w : Word} {s : State} (hs : ready s = true) (h0 : s.win.intStatus = 0)
  (hi : raisedWord s.params i = some w) (hw0 : w ≠ 0) (hw1 : w ≠ BitVec.allOnes 32)

include h0 in
theorem acknowledged_raised : acknowledged w (statusRead (envRaise w s)) = taken w s := by
  have hraised : s.win.intStatus ||| w = w := by rw [h0]; exact BitVec.zero_or
  have htrace : (s.trace ++ [.r32 s.params.offIntStatus (s.win.intStatus ||| w)]) ++ [.w32 s.params.offIntStatus w] =
      s.trace ++ [.r32 s.params.offIntStatus w, .w32 s.params.offIntStatus w] := by rw [hraised, List.append_assoc]; rfl
  have hwin := window_written_raised h0 w
  simp only [acknowledged, statusRead, envRaise, record, htrace, hwin, taken]

include hs h0 hi hw0 hw1

/-- The step of a status word is the dispatch of that word. -/
theorem exec_statusWord_dispatch :
    exec i s = (dispatchWord w (statusRead (envRaise w s))).outcome := by
  obtain ⟨hf, ha, -⟩ := ready_iff.1 hs
  have hraised : (envRaise w s).win.intStatus = w := by
    show s.win.intStatus ||| w = w
    rw [h0]
    exact BitVec.zero_or
  have hw : spuriousWord (envRaise w s).win.intStatus = false := by
    rw [hraised]
    exact Bool.or_eq_false_iff.2 ⟨beq_eq_false_iff_ne.2 hw0, beq_eq_false_iff_ne.2 hw1⟩
  rw [exec_statusWord hf ha hi, dispatch_eq (s := envRaise w s) hs hw, hraised]

/-- R193: a word of card-presence bits schedules the card-presence work. -/
theorem exec_cardWord (hm : w &&& ~~~cardMask s.params = 0) :
    exec i s = .next { taken w s with cardPend := true } := by
  have hfront : dispatchFront w (statusRead (envRaise w s)) = done (scheduleWork .card (taken w s)) := by
    rw [dispatchFront_of_cardBits (s := statusRead (envRaise w s)) hs hw0 hm, acknowledged_raised h0]
  rw [exec_statusWord_dispatch hs h0 hi hw0 hw1, dispatchWord, hfront, Res.bind_done,
    dispatchBack_of_cardBits (s := scheduleWork .card (taken w s)) hm]
  rfl

/-- R195: a word of command bits is the command interrupt of its bits. -/
theorem exec_cmdWord (hm : w &&& ~~~cmdMask s.params = 0) : exec i s = exec (.cmdIrq w) (taken w s) := by
  have hready : ReadyWith s.params (taken w s) := ⟨hs, rfl⟩
  rw [exec_statusWord_dispatch hs h0 hi hw0 hw1, dispatchWord,
    dispatchFront_of_cmdBits (s := statusRead (envRaise w s)) hs hm hw0, acknowledged_raised h0,
    (onCommandInterrupt_proceeds hready w).outcome_bind (k := .next) fun t ht => by
      rw [dispatchBack_of_cmdBits ht.1 (by rw [ht.2]; exact hm)]
      rfl, thenStep_next_right, exec_cmdIrq (s := taken w s) (ready_iff.1 hs).1]

/-- R195: a word of data bits is the data interrupt of its bits. -/
theorem exec_dataWord (hm : w &&& ~~~dataMask s.params = 0) : exec i s = exec (.dataIrq w) (taken w s) := by
  have hready : ReadyWith s.params (taken w s) := ⟨hs, rfl⟩
  rw [exec_statusWord_dispatch hs h0 hi hw0 hw1, dispatchWord,
    dispatchFront_of_dataBits (s := statusRead (envRaise w s)) hs hm, Res.bind_done,
    dispatchBack_of_dataBits (s := statusRead (envRaise w s)) hs hw0 hm, acknowledged_raised h0,
    (onDataInterrupt_proceeds hready w).outcome_bind (k := .next) fun t ht => by
      rw [acknowledge_none (restPart_of_dataBits (by rw [ht.2]; exact (ready_iff.1 hs).2.2) (by rw [ht.2]; exact hm))]
      rfl, thenStep_next_right, exec_dataIrq (s := taken w s) (ready_iff.1 hs).1]

/-- R196: a word with no bit of the three categories is logged. -/
theorem exec_restWord (hm : w &&& (cardMask s.params ||| cmdMask s.params ||| dataMask s.params) = 0) :
    exec i s = (logRemaining w (taken w s)).outcome := by
  rw [exec_statusWord_dispatch hs h0 hi hw0 hw1, dispatchWord,
    dispatchFront_of_restBits (s := statusRead (envRaise w s)) hm, Res.bind_done,
    dispatchBack_of_restBits (s := statusRead (envRaise w s)) hs hw0 hm, acknowledged_raised h0]

end

/-! ### Words of one bit (R31, R94) -/

/-- Every status position is below 32 (R31). -/
theorem paramsOk_status_lt {p : Params} (h : paramsOk p = true) :
    ∀ n ∈ [p.stCmdComplete, p.stXferComplete, p.stSpaceAvail, p.stDataAvail, p.stCardInsert, p.stCardRemove,
      p.stCardInt, p.stCmdTimeout, p.stCmdCrc, p.stCmdEndBit, p.stCmdIndex, p.stDataTimeout, p.stDataCrc,
      p.stDataEndBit], n < 32 := by
  simp only [paramsOk, Bool.and_eq_true] at h
  obtain ⟨⟨⟨⟨⟨⟨⟨⟨⟨-, hlt⟩, -⟩, -⟩, -⟩, -⟩, -⟩, -⟩, -⟩, -⟩ := h
  exact fun n hn => of_decide_eq_true (List.all_eq_true.1 hlt n hn)

theorem bitMask_ne_zero {n : Nat} (h : n < 32) : bitMask n ≠ 0 := fun h0 => by
  have hbit := getElem_bitMask (n := n) h
  simp [h0] at hbit

theorem bitMask_ne_allOnes (n : Nat) : bitMask n ≠ BitVec.allOnes 32 := fun h1 => by
  have hzero := getElem_bitMask (n := n) (i := 0) (by decide)
  have hone := getElem_bitMask (n := n) (i := 1) (by decide)
  simp only [h1, BitVec.getElem_allOnes] at hzero hone
  have h0 := of_decide_eq_true hzero.symm
  have h1 := of_decide_eq_true hone.symm
  omega

/-- A word with no bit outside a mask that is not 0 has a bit in it. -/
theorem and_ne_zero_of_within {w m : Word} (hw : w ≠ 0) (hm : w &&& ~~~m = 0) : w &&& m ≠ 0 := by
  rwa [and_eq_self_of_and_not_eq_zero hm]

section
variable {s : State} {w : Word} {n : Nat} (hs : ready s = true) (h0 : s.win.intStatus = 0) (hw : onlyBit n w)
  (hn : n < 32) {i : Instr} (hi : raisedWord s.params i = some (w ||| bitMask n))
include hs h0 hw hn hi

theorem exec_cardBit (hm : bitMask n &&& ~~~cardMask s.params = 0) :
    exec i s = .next { taken (bitMask n) s with cardPend := true } :=
  exec_cardWord hs h0 (hw ▸ hi) (bitMask_ne_zero hn) (bitMask_ne_allOnes n) hm

theorem exec_cmdBit (hm : bitMask n &&& ~~~cmdMask s.params = 0) :
    exec i s = exec (.cmdIrq (bitMask n)) (taken (bitMask n) s) :=
  exec_cmdWord hs h0 (hw ▸ hi) (bitMask_ne_zero hn) (bitMask_ne_allOnes n) hm

theorem exec_dataBit (hm : bitMask n &&& ~~~dataMask s.params = 0) :
    exec i s = exec (.dataIrq (bitMask n)) (taken (bitMask n) s) :=
  exec_dataWord hs h0 (hw ▸ hi) (bitMask_ne_zero hn) (bitMask_ne_allOnes n) hm

end

/-! ### Words that end no command and move no data (R192, R193, R196) -/

theorem cardBits_within (p : Params) :
    bitMask p.stCardInsert &&& ~~~cardMask p = 0 ∧ bitMask p.stCardRemove &&& ~~~cardMask p = 0 := by
  constructor <;> ext i hi <;> simp [cardMask] <;> grind

/-- The card interrupt has no bit of the other categories, and is classified (R32). -/
theorem cardInt_apart {p : Params} (hp : paramsOk p = true) :
    bitMask p.stCardInt &&& (cardMask p ||| cmdMask p ||| dataMask p) = 0 ∧
    bitMask p.stCardInt &&& ~~~classified p = 0 := by
  have hn := paramsOk_status_nodup hp
  simp only [List.nodup_cons, List.mem_cons, not_or] at hn
  constructor
  · ext i hi
    simp only [cardMask, cmdMask, cmdErrTo, cmdErrProt, dataMask, dataXfer, dataErr, dataErrTo, dataErrProt,
      BitVec.getElem_and, BitVec.getElem_or, getElem_bitMask hi, BitVec.ofNat_eq_ofNat, BitVec.getElem_zero]
    grind
  · ext i hi
    simp [classified, cardIntMask]
    grind

/-- A word with no classified bit has none of the three categories, and no card interrupt. -/
theorem unclassified_apart {p : Params} {w : Word} (h : w &&& classified p = 0) :
    w &&& (cardMask p ||| cmdMask p ||| dataMask p) = 0 ∧ w &&& cardIntMask p = 0 := by
  rw [classified, BitVec.and_or_distrib_left] at h
  exact BitVec.or_eq_zero_iff.1 h

theorem outcome_logRemaining_cardInt {s : State} {w : Word} (hw : w &&& cardIntMask s.params = w) (hw0 : w ≠ 0)
    (hc : w &&& ~~~classified s.params = 0) : (logRemaining w s).outcome =
      .next { s with trace := s.trace ++ [.log (.cardIntBits w)] } := by
  rw [outcome_logRemaining, hw, if_neg hw0, if_pos hc, List.append_nil]

theorem outcome_logRemaining_unclassified {s : State} {w : Word} (hw : w &&& cardIntMask s.params = 0) (hw0 : w ≠ 0)
    (hc : w &&& classified s.params = 0) : (logRemaining w s).outcome =
      .next { s with trace := s.trace ++ [.log (.unclassifiedBits w)] } := by
  rw [outcome_logRemaining, if_pos hw, and_not_eq_self_of_and_eq_zero hc, if_neg hw0, List.append_nil]

/-- Settles O44: each word lies in one category, which is all the dispatch then runs. -/
theorem quietWords : Obligations.QuietWords := by
  unfold Obligations.QuietWords
  intro s hs h0 p acked
  obtain ⟨hf, ha, -⟩ := ready_iff.1 hs
  have hp : paramsOk p = true := (ready_iff.1 hs).2.2
  have hlt := paramsOk_status_lt hp
  obtain ⟨hinsert, hremove⟩ := cardBits_within p
  obtain ⟨happart, hclassified⟩ := cardInt_apart hp
  refine ⟨fun w hw => exec_cardBit hs h0 hw (hlt _ (by simp)) rfl hinsert,
    fun w hw => exec_cardBit hs h0 hw (hlt _ (by simp)) rfl hremove, fun w hw => ?_, fun w hw0 hw => ?_, ?_, ?_⟩
  · have hn := hlt p.stCardInt (by simp)
    have hi : raisedWord s.params (.stCardInt w) = some (bitMask p.stCardInt) := congrArg some hw
    have hself : bitMask p.stCardInt &&& cardIntMask p = bitMask p.stCardInt := BitVec.and_self
    rw [exec_restWord hs h0 hi (bitMask_ne_zero hn) (bitMask_ne_allOnes _) happart]
    exact outcome_logRemaining_cardInt hself (bitMask_ne_zero hn) hclassified
  · obtain ⟨happart, hcardInt⟩ := unclassified_apart hw
    have hne : w ≠ BitVec.allOnes 32 := fun h => by
      rw [h, BitVec.allOnes_and] at hcardInt
      exact bitMask_ne_zero (hlt p.stCardInt (by simp)) hcardInt
    rw [exec_restWord hs h0 rfl hw0 hne happart]
    exact outcome_logRemaining_unclassified hcardInt hw0 hw
  · have he : enabled .spuriousZero s = true := by simp [enabled, ha, h0]
    have hw : spuriousWord s.win.intStatus = true := by rw [h0]; rfl
    rw [exec_enabled hf he]
    show (dispatch s).outcome = _
    rw [dispatch_spurious hs hw, Res.outcome_done, statusRead, h0]
    rfl
  · have hones : s.win.intStatus ||| BitVec.allOnes 32 = BitVec.allOnes 32 := by
      rw [h0]
      exact BitVec.zero_or
    have hw : spuriousWord (envRaise (BitVec.allOnes 32) s).win.intStatus = true := by
      show spuriousWord (s.win.intStatus ||| BitVec.allOnes 32) = true
      rw [hones]
      rfl
    rw [exec_statusWord hf ha rfl, dispatch_spurious (s := envRaise _ s) hs hw, Res.outcome_done]
    simp only [statusRead, envRaise, hones]
    rfl

/-! ### Command words (R136, R137, R140, R147) -/

/-- The command bits lie in the command mask, the error bits in their class. -/
theorem cmdBits_within (p : Params) :
    bitMask p.stCmdTimeout &&& ~~~cmdMask p = 0 ∧ bitMask p.stCmdCrc &&& ~~~cmdMask p = 0 ∧
    bitMask p.stCmdEndBit &&& ~~~cmdMask p = 0 ∧ bitMask p.stCmdIndex &&& ~~~cmdMask p = 0 ∧
    bitMask p.stCmdComplete &&& ~~~cmdMask p = 0 ∧ bitMask p.stCmdCrc &&& ~~~cmdErrProt p = 0 ∧
    bitMask p.stCmdEndBit &&& ~~~cmdErrProt p = 0 ∧ bitMask p.stCmdIndex &&& ~~~cmdErrProt p = 0 := by
  refine ⟨?_, ?_, ?_, ?_, ?_, ?_, ?_, ?_⟩ <;> ext i hi <;> simp [cmdMask, cmdErrTo, cmdErrProt] <;> grind

/-- Their classes do not meet (R31). -/
theorem cmdBits_apart {p : Params} (hp : paramsOk p = true) :
    bitMask p.stCmdCrc &&& cmdErrTo p = 0 ∧ bitMask p.stCmdEndBit &&& cmdErrTo p = 0 ∧
    bitMask p.stCmdIndex &&& cmdErrTo p = 0 ∧ bitMask p.stCmdComplete &&& cmdErrTo p = 0 ∧
    bitMask p.stCmdComplete &&& cmdErrProt p = 0 := by
  have hn := paramsOk_status_nodup hp
  simp only [List.nodup_cons, List.mem_cons, not_or] at hn
  refine ⟨bitMask_and_bitMask_of_ne ?_, bitMask_and_bitMask_of_ne ?_, bitMask_and_bitMask_of_ne ?_,
    bitMask_and_bitMask_of_ne ?_, ?_⟩
  case refine_5 =>
    ext i hi
    simp only [cmdErrProt, BitVec.getElem_and, BitVec.getElem_or, getElem_bitMask hi, BitVec.ofNat_eq_ofNat,
      BitVec.getElem_zero]
    grind
  all_goals grind

/-- Settles O45: each word is the command interrupt of its one bit. -/
theorem commandWords : Obligations.CommandWords := by
  unfold Obligations.CommandWords
  intro s r q c hs h0 hcur hq hc p acked failed
  have hf := (ready_iff.1 hs).1
  have hp : paramsOk p = true := (ready_iff.1 hs).2.2
  have hlt := paramsOk_status_lt hp
  obtain ⟨htimeout, hcrc, hendBit, hindex, hcomplete, hcrcProt, hendProt, hindexProt⟩ := cmdBits_within p
  obtain ⟨hcrcTo, hendTo, hindexTo, hcompleteTo, hcompleteProt⟩ := cmdBits_apart hp
  have hirq := fun (m : Word) => commandInterrupt (taken m s) m r q c hf hcur hq hc
  have protocol : ∀ {n : Nat} {i : Instr} {w : Word}, n < 32 → onlyBit n w →
      raisedWord s.params i = some (w ||| bitMask n) → bitMask n &&& ~~~cmdMask p = 0 →
      bitMask n &&& cmdErrTo p = 0 → bitMask n &&& ~~~cmdErrProt p = 0 →
      exec i s = failed n .protocolViolation := fun {n i w} hn hw hi hcmd hto hprot => by
    obtain ⟨-, herr, -⟩ := hirq (bitMask n)
    exact (exec_cmdBit hs h0 hw hn hi hcmd).trans
      (herr hto (and_ne_zero_of_within (bitMask_ne_zero hn) hprot))
  refine ⟨fun w hw => ?_, fun w hw => protocol (hlt _ (by simp)) hw rfl hcrc hcrcTo hcrcProt,
    fun w hw => protocol (hlt _ (by simp)) hw rfl hendBit hendTo hendProt,
    fun w hw => protocol (hlt _ (by simp)) hw rfl hindex hindexTo hindexProt, fun w sh hw hr hdata hsh => ?_⟩
  · have hn := hlt p.stCmdTimeout (by simp)
    obtain ⟨herr, -⟩ := hirq (bitMask p.stCmdTimeout)
    have hself : bitMask p.stCmdTimeout &&& bitMask p.stCmdTimeout ≠ 0 := by
      rw [BitVec.and_self]
      exact bitMask_ne_zero hn
    exact (exec_cmdBit hs h0 hw hn rfl htimeout).trans (herr hself)
  · have hn := hlt p.stCmdComplete (by simp)
    obtain ⟨-, -, hfinish, -⟩ := hirq (bitMask p.stCmdComplete)
    have hself : bitMask p.stCmdComplete &&& bitMask p.stCmdComplete ≠ 0 := by
      rw [BitVec.and_self]
      exact bitMask_ne_zero hn
    have hcmd : cmdOf (taken (bitMask p.stCmdComplete) s) r = some c := by
      show s.req.bind _ = _
      rw [hq]
      exact hc
    obtain ⟨-, hcaptured, -⟩ := finishCommandCaptures (taken (bitMask p.stCmdComplete) s) r c sh hs hcur hcmd hsh
    rw [exec_cmdBit hs h0 hw hn rfl hcomplete, hfinish hcompleteTo hcompleteProt hself,
      if_neg (by simp [taken, hdata]), hcaptured hr hdata]
    rfl

/-! ### Data words (R160 to R165, R167, R171) -/

/-- The data bits lie in the data mask, and each in its class. -/
theorem dataBits_within (p : Params) :
    bitMask p.stDataTimeout &&& ~~~dataMask p = 0 ∧ bitMask p.stDataCrc &&& ~~~dataMask p = 0 ∧
    bitMask p.stDataEndBit &&& ~~~dataMask p = 0 ∧ bitMask p.stXferComplete &&& ~~~dataMask p = 0 ∧
    bitMask p.stDataAvail &&& ~~~dataMask p = 0 ∧ bitMask p.stSpaceAvail &&& ~~~dataMask p = 0 ∧
    bitMask p.stDataCrc &&& ~~~dataErrProt p = 0 ∧ bitMask p.stDataEndBit &&& ~~~dataErrProt p = 0 ∧
    bitMask p.stDataAvail &&& ~~~dataXfer p = 0 ∧ bitMask p.stSpaceAvail &&& ~~~dataXfer p = 0 := by
  refine ⟨?_, ?_, ?_, ?_, ?_, ?_, ?_, ?_, ?_, ?_⟩ <;> ext i hi <;>
    simp [dataMask, dataXfer, dataErr, dataErrTo, dataErrProt] <;> grind

/-- Their classes do not meet (R31). -/
theorem dataBits_apart {p : Params} (hp : paramsOk p = true) :
    bitMask p.stDataCrc &&& dataErrTo p = 0 ∧ bitMask p.stDataEndBit &&& dataErrTo p = 0 ∧
    bitMask p.stXferComplete &&& (dataErrTo p ||| dataErrProt p) = 0 ∧ bitMask p.stXferComplete &&& dataXfer p = 0 ∧
    bitMask p.stDataAvail &&& (dataErrTo p ||| dataErrProt p) = 0 ∧
    bitMask p.stDataAvail &&& bitMask p.stXferComplete = 0 ∧
    bitMask p.stSpaceAvail &&& (dataErrTo p ||| dataErrProt p) = 0 ∧
    bitMask p.stSpaceAvail &&& bitMask p.stXferComplete = 0 := by
  have hn := paramsOk_status_nodup hp
  simp only [List.nodup_cons, List.mem_cons, not_or] at hn
  refine ⟨?_, ?_, ?_, ?_, ?_, ?_, ?_, ?_⟩ <;> ext i hi <;>
    simp only [dataXfer, dataErrTo, dataErrProt, BitVec.getElem_and, BitVec.getElem_or, getElem_bitMask hi,
      BitVec.ofNat_eq_ofNat, BitVec.getElem_zero] <;> grind

section
variable {u : State} {m : Word} {d : Data} (hf : u.fault = none) (hcur : u.curData = true) (hd : dataOf u = some d)
  (herr : m &&& (dataErrTo u.params ||| dataErrProt u.params) = 0)
include hf hcur hd herr

/-- R162: a transfer request alone is PIO, but once dataEarly is set only by the parameter (log 37). -/
theorem exec_dataIrq_request (hx : m &&& dataXfer u.params ≠ 0)
    (hdone : m &&& bitMask u.params.stXferComplete = 0) : exec (.dataIrq m) u =
      if u.dataEarly = true ∧ u.params.earlyBlocks = .left then .next u else exec .pio u := by
  obtain ⟨-, -, hmain, -⟩ := dataInterruptPhase u m d hf hcur hd
  have hmoves : (m &&& dataXfer u.params ≠ 0 ∧ (u.dataEarly = false ∨ u.params.earlyBlocks = .moved)) ↔
      ¬ (u.dataEarly = true ∧ u.params.earlyBlocks = .left) := by
    rw [and_iff_right hx]
    cases u.dataEarly <;> cases u.params.earlyBlocks <;> decide
  simp only [hmain herr, hdone, if_true, thenStep_next_right, hmoves, ite_not]

/-- R164, R165: transfer-complete alone, with no command outstanding, starts the next block or finishes. -/
theorem exec_dataIrq_complete (hx : m &&& dataXfer u.params = 0)
    (hdone : m &&& bitMask u.params.stXferComplete ≠ 0) (hcmd : u.curCmd = none) : exec (.dataIrq m) u =
      if 0 < u.cursor.blocksLeft then exec (.triggerBlock (BitVec.ofNat 16 d.blksz) d.dir) u
      else exec (.finishData .ok) u := by
  obtain ⟨-, -, hmain, -⟩ := dataInterruptPhase u m d hf hcur hd
  rw [hmain herr, if_neg (fun h => h.1 hx), thenStep_live hf, if_neg hdone, if_neg (by simp [hcmd])]

end

/-- Settles O46: each word is the data interrupt of its one bit. -/
theorem dataWordSteps : Obligations.DataWords := by
  unfold Obligations.DataWords
  intro s q d hs h0 hcur hcmd hq hd hstop p acked ended asked
  have hf := (ready_iff.1 hs).1
  have hp : paramsOk p = true := (ready_iff.1 hs).2.2
  have hlt := paramsOk_status_lt hp
  obtain ⟨htimeout, hcrc, hendBit, hxfer, havail, hspace, hcrcProt, hendProt, havailXfer, hspaceXfer⟩ :=
    dataBits_within p
  obtain ⟨hcrcTo, hendTo, hxferErr, hxferXfer, havailErr, havailDone, hspaceErr, hspaceDone⟩ := dataBits_apart hp
  have hdata : dataOf s = some d := by simp [dataOf, hq, hd]
  have hirq := fun (m : Word) => dataInterruptPhase (taken m s) m d hf hcur hdata
  have hfinish : ∀ n e, exec (.finishData e) (taken (bitMask n) s) = ended n e := fun n e => by
    obtain ⟨hclose, -⟩ := DataSession.finishData (taken (bitMask n) s) e q d hs hq hd
    exact hclose (fun h => h.1 hstop)
  have hself : ∀ {n}, n < 32 → bitMask n &&& bitMask n ≠ 0 := fun hn => by
    rw [BitVec.and_self]
    exact bitMask_ne_zero hn
  have protocol : ∀ {n : Nat} {i : Instr} {w : Word}, n < 32 → onlyBit n w →
      raisedWord s.params i = some (w ||| bitMask n) → bitMask n &&& ~~~dataMask p = 0 →
      bitMask n &&& dataErrTo p = 0 → bitMask n &&& ~~~dataErrProt p = 0 →
      exec i s = ended n .protocolViolation := fun {n i w} hn hw hi hwithin hto hprot => by
    obtain ⟨-, herr, -⟩ := hirq (bitMask n)
    rw [exec_dataBit hs h0 hw hn hi hwithin,
      herr hto (and_ne_zero_of_within (bitMask_ne_zero hn) hprot), hfinish]
  have request : ∀ {n : Nat} {i : Instr} {w : Word}, n < 32 → onlyBit n w →
      raisedWord s.params i = some (w ||| bitMask n) → bitMask n &&& ~~~dataMask p = 0 →
      bitMask n &&& (dataErrTo p ||| dataErrProt p) = 0 → bitMask n &&& ~~~dataXfer p = 0 →
      bitMask n &&& bitMask p.stXferComplete = 0 → exec i s = asked n :=
    fun {n i w} hn hw hi hwithin herr hx hdone => (exec_dataBit hs h0 hw hn hi hwithin).trans
      (exec_dataIrq_request (u := taken (bitMask n) s) hf hcur hdata herr
        (and_ne_zero_of_within (bitMask_ne_zero hn) hx) hdone)
  have complete : ∀ {w : Word}, onlyBit p.stXferComplete w → exec (.stXferComplete w) s =
      if 0 < s.cursor.blocksLeft then
        exec (.triggerBlock (BitVec.ofNat 16 d.blksz) d.dir) (taken (bitMask p.stXferComplete) s)
      else exec (.finishData .ok) (taken (bitMask p.stXferComplete) s) := fun {w} hw => by
    have hn := hlt p.stXferComplete (by simp)
    exact (exec_dataBit hs h0 hw hn rfl hxfer).trans
      (exec_dataIrq_complete (u := taken (bitMask p.stXferComplete) s) hf hcur hdata hxferErr hxferXfer (hself hn) hcmd)
  refine ⟨fun w hw => ?_, fun w hw => protocol (hlt _ (by simp)) hw rfl hcrc hcrcTo hcrcProt,
    fun w hw => protocol (hlt _ (by simp)) hw rfl hendBit hendTo hendProt, fun w hw hleft => ?_,
    fun w hw hleft => ?_, fun w hw => request (hlt _ (by simp)) hw rfl havail havailErr havailXfer havailDone,
    fun w hw => request (hlt _ (by simp)) hw rfl hspace hspaceErr hspaceXfer hspaceDone⟩
  · have hn := hlt p.stDataTimeout (by simp)
    obtain ⟨herr, -⟩ := hirq (bitMask p.stDataTimeout)
    rw [exec_dataBit hs h0 hw hn rfl htimeout, herr (hself hn), hfinish]
  · rw [complete hw, if_neg (by omega), hfinish]
  · rw [complete hw, if_pos hleft, exec_triggerBlock (s := taken (bitMask p.stXferComplete) s) hf,
      triggerBlock_ok (s := taken (bitMask p.stXferComplete) s) hs]
    rfl

end Sys2Proof.Machine

/-! The engine between steps (spec/10_state.md R21, R36 to R41, spec/45_completion_watchdog.md R226 to R228,
spec/70_reset_and_hazards.md R282, R299): the invariant of a live state as three cases, the block detached, idle,
or running a Request, and what each says. A running state is described by the Request its issuer supplied, whose
fields no step writes. -/

namespace Sys2Proof.Machine

/-! ### What the issuer's part of a Request fixes (R237) -/

/-- The fields of a Data object its issuer supplies. -/
def Data.issuerPart (d : Data) : Data :=
  { d with bytesXfered := 0, error := .ok, stop := d.stop.map Command.issuerPart }

/-- Two Requests have the same fields of their issuer. -/
def SameIssuer (q q' : Request) : Prop := Request.issuerPart q' = Request.issuerPart q

theorem SameIssuer.symm {q q' : Request} (h : SameIssuer q q') : SameIssuer q' q := Eq.symm h

theorem command_issuerPart (q : Request) (r : Role) :
    Request.command (Request.issuerPart q) r = (Request.command q r).map Command.issuerPart := by
  cases r with
  | sbc => rfl
  | primary => rfl
  | stop => cases hd : q.data <;> simp [Request.command, Request.issuerPart, hd]

/-- A Command of the one has its counterpart in the other, of the same shape, opcode and role. -/
theorem SameIssuer.command {q q' : Request} (h : SameIssuer q q') {r : Role} {c : Command}
    (hc : Request.command q r = some c) : ∃ c', Request.command q' r = some c' ∧
      c'.shapeCode = c.shapeCode ∧ c'.role = c.role := by
  have hparts := congrArg (fun x => Request.command x r) (show Request.issuerPart q' = Request.issuerPart q from h)
  simp only [command_issuerPart, hc, Option.map_some] at hparts
  obtain ⟨c', hc', hpart⟩ := Option.map_eq_some_iff.1 hparts
  have hshape := congrArg Command.shapeCode hpart
  have hrole := congrArg Command.role hpart
  exact ⟨c', hc', hshape, hrole⟩

/-- The Data object of the one has its counterpart in the other, of the same direction, sizes and list. -/
theorem SameIssuer.data {q q' : Request} (h : SameIssuer q q') {d : Data} (hd : q.data = some d) :
    ∃ d', q'.data = some d' ∧ d'.dir = d.dir ∧ d'.blksz = d.blksz ∧ d'.blocks = d.blocks ∧ d'.sg = d.sg := by
  have hparts : q'.data.map Data.issuerPart = q.data.map Data.issuerPart := congrArg Request.data h
  rw [hd, Option.map_some] at hparts
  obtain ⟨d', hd', hpart⟩ := Option.map_eq_some_iff.1 hparts
  have hdir := congrArg Data.dir hpart
  have hblksz := congrArg Data.blksz hpart
  have hblocks := congrArg Data.blocks hpart
  have hsg := congrArg Data.sg hpart
  exact ⟨d', hd', hdir, hblksz, hblocks, hsg⟩

/-- The Request has a Command of the role, of a known shape (R36, R132). -/
def Launchable (q : Request) (r : Role) : Prop :=
  ∃ c, Request.command q r = some c ∧ (Shape.ofCode c.shapeCode).isSome = true

/-- The Request has a primary command, and each Command its role (R27, R98). -/
def WithRoles (q : Request) : Prop :=
  q.cmd.isSome = true ∧ ∀ r c, Request.command q r = some c → c.role = r

/-- The Request's Data object is one prepare accepts, and from the cursor its list covers the blocks left (R151,
R153, R183). -/
def Covered (p : Params) (q : Request) (c : Cursor) : Prop :=
  ∃ d, q.data = some d ∧ sizesOk d = true ∧ sgInRange p d = true ∧ c.blocksLeft ≤ d.blocks ∧
    cursorIn d.sg c = true ∧ d.blksz * c.blocksLeft ≤ sgLeft d.sg c

section
variable {q q' : Request} (h : SameIssuer q q')
include h

theorem SameIssuer.launchable {r : Role} (hl : Launchable q r) : Launchable q' r := by
  obtain ⟨c, hc, hshape⟩ := hl
  obtain ⟨c', hc', hcode, -⟩ := h.command hc
  exact ⟨c', hc', hcode ▸ hshape⟩

theorem SameIssuer.withRoles (hr : WithRoles q) : WithRoles q' := by
  obtain ⟨hcmd, hroles⟩ := hr
  obtain ⟨c, hc⟩ := Option.isSome_iff_exists.1 hcmd
  obtain ⟨c', hc', -, -⟩ := h.command (r := .primary) hc
  refine ⟨Option.isSome_iff_exists.2 ⟨c', hc'⟩, fun r x hx => ?_⟩
  obtain ⟨y, hy, -, hrole⟩ := h.symm.command hx
  exact hrole.symm.trans (hroles r y hy)

theorem SameIssuer.covered {p : Params} {c : Cursor} (hc : Covered p q c) : Covered p q' c := by
  obtain ⟨d, hd, hsizes, hrange, hblocks, hin, hleft⟩ := hc
  obtain ⟨d', hd', -, hz, hn, hsg⟩ := h.data hd
  refine ⟨d', hd', ?_, ?_, hn ▸ hblocks, hsg ▸ hin, ?_⟩
  · simpa only [sizesOk, hz, hn] using hsizes
  · simpa only [sgInRange, hsg] using hrange
  · rwa [hz, hsg]

end

/-! ### The three cases of a live state -/

/-- The block is not attached, and nothing is pending (R235, R282). -/
structure Detached (s : State) : Prop where
  fault : s.fault = none
  attached : s.attached = false
  req : s.req = none
  curCmd : s.curCmd = none
  curData : s.curData = false
  dataEarly : s.dataEarly = false
  accOff : s.cursor.accOff = 0
  timer : s.timer = none
  finishPend : s.finishPend = false
  cardPend : s.cardPend = false
  notifyQ : s.notifyQ = []

/-- Attached, with no Request active: the engine holds nothing (R206, R280). -/
structure Idle (s : State) : Prop where
  ready : ready s = true
  req : s.req = none
  curCmd : s.curCmd = none
  curData : s.curData = false
  dataEarly : s.dataEarly = false
  accOff : s.cursor.accOff = 0
  timer : s.timer = none
  finishPend : s.finishPend = false

/-- A Request with the issuer's fields of q is active, an attached Data phase is covered, and nothing is said of
the slot: what holds also inside a step. -/
structure Active (q : Request) (s : State) : Prop where
  ready : ready s = true
  req : ∃ q', s.req = some q' ∧ SameIssuer q q'
  roles : WithRoles q
  covered : s.curData = true → Covered s.params q s.cursor
  early : s.dataEarly = true → s.curData = true
  accOff : s.cursor.accOff = 0

/-- Between steps, too, an outstanding command was launched, and the Request is on its way to completion (R21,
R36, R163, R299). -/
structure Running (q : Request) (s : State) : Prop extends Active q s where
  slot : ∀ r, s.curCmd = some r → Launchable q r
  earlySlot : s.dataEarly = true → s.curCmd.isSome = true
  progress : s.finishPend = true ∨ (s.curCmd.isSome = true ∨ s.curData = true) ∧ s.timer.isSome = true

/-- The engine of a live state between steps. -/
def EngineInv (s : State) : Prop := Detached s ∨ Idle s ∨ ∃ q, Running q s

/-! ### The cases are the invariant of the statements -/

theorem slotOk_iff {s : State} : slotOk s = true ↔ ∀ r, s.curCmd = some r →
    ∃ c, cmdOf s r = some c ∧ (Shape.ofCode c.shapeCode).isSome = true := by
  cases hcur : s.curCmd with
  | none => simp [slotOk, hcur]
  | some r => cases hc : cmdOf s r <;> simp [slotOk, hcur, hc]

theorem dataPhaseOk_iff {s : State} {q : Request} (hq : s.req = some q) :
    dataPhaseOk s = true ↔ (s.curData = true → Covered s.params q s.cursor) := by
  cases hcur : s.curData with
  | false => simp [dataPhaseOk, hcur]
  | true => cases hd : q.data <;> simp [dataPhaseOk, hcur, dataOf, hq, hd, Covered, and_assoc]

theorem requestOk_iff {s : State} {q : Request} (hq : s.req = some q) : requestOk s = true ↔ WithRoles q := by
  have hrole : ∀ r (c : Option Command), roleOk r c = true ↔ ∀ x, c = some x → x.role = r := fun r c => by
    cases c <;> simp [roleOk]
  simp only [requestOk, hq, Bool.and_eq_true, hrole, WithRoles, and_assoc]
  refine and_congr_right fun _ => ⟨fun ⟨hp, hs, ht⟩ r c hc => ?_, fun h => ⟨h .primary, h .sbc, h .stop⟩⟩
  cases r with
  | sbc => exact hs c hc
  | primary => exact hp c hc
  | stop => exact ht c hc

theorem sameIssuer_refl (q : Request) : SameIssuer q q := rfl

/-- A live state that meets the statements' invariant is in one of the three cases. -/
theorem engineInv_of_engineOk {s : State} (hf : s.fault = none) (hp : paramsOk s.params = true)
    (h : engineOk s = true) : EngineInv s := by
  simp only [engineOk, Bool.and_eq_true, decide_eq_true_eq] at h
  obtain ⟨⟨⟨⟨⟨⟨⟨hslot, hdata⟩, hearly⟩, hacc⟩, hidle⟩, hdetached⟩, hrequest⟩, hprogress⟩ := h
  simp only [earlyOk, Bool.or_eq_true, Bool.not_eq_true', Bool.and_eq_true] at hearly
  cases hq : s.req with
  | none =>
    simp only [idleOk, hq, Option.isSome_none, Bool.false_or, Bool.and_eq_true, Bool.not_eq_true',
      Option.isNone_iff_eq_none] at hidle
    obtain ⟨⟨⟨hcmd, hcur⟩, hfin⟩, htimer⟩ := hidle
    have hnotEarly : s.dataEarly = false := hearly.resolve_right (by simp [hcur])
    cases ha : s.attached with
    | true => exact .inr (.inl ⟨ready_iff.2 ⟨hf, ha, hp⟩, hq, hcmd, hcur, hnotEarly, hacc, htimer, hfin⟩)
    | false =>
      simp only [detachedOk, ha, Bool.false_or, Bool.and_eq_true, Bool.not_eq_true', List.isEmpty_iff] at hdetached
      obtain ⟨⟨⟨-, hcard⟩, -⟩, hqueue⟩ := hdetached
      exact .inl ⟨hf, ha, hq, hcmd, hcur, hnotEarly, hacc, htimer, hfin, hcard, hqueue⟩
  | some q =>
    have ha : s.attached = true := by
      simp only [detachedOk, hq, Option.isNone_some, Bool.false_and, Bool.or_false] at hdetached
      exact hdetached
    simp only [progressOk, hq, Option.isNone_some, Bool.false_or, Bool.or_eq_true, Bool.and_eq_true] at hprogress
    refine .inr (.inr ⟨q, ⟨ready_iff.2 ⟨hf, ha, hp⟩, ⟨q, hq, sameIssuer_refl q⟩, (requestOk_iff hq).1 hrequest,
      (dataPhaseOk_iff hq).1 hdata, fun he => ?_, hacc⟩, fun r hr => ?_, fun he => ?_, hprogress⟩)
    · exact (hearly.resolve_left (by simp [he])).1
    · obtain ⟨c, hc, hshape⟩ := slotOk_iff.1 hslot r hr
      exact ⟨c, by simpa [cmdOf, hq] using hc, hshape⟩
    · exact (hearly.resolve_left (by simp [he])).2

section
variable {s : State}

theorem Detached.engineOk (h : Detached s) : engineOk s = true := by
  obtain ⟨-, ha, hq, hcmd, hcur, hearly, hacc, htimer, hfin, hcard, hqueue⟩ := h
  simp [Machine.engineOk, slotOk, dataPhaseOk, earlyOk, idleOk, detachedOk, requestOk, progressOk, ha, hq, hcmd, hcur,
    hearly, hacc, htimer, hfin, hcard, hqueue]

theorem Idle.engineOk (h : Idle s) : engineOk s = true := by
  obtain ⟨hs, hq, hcmd, hcur, hearly, hacc, htimer, hfin⟩ := h
  have ha := (ready_iff.1 hs).2.1
  simp [Machine.engineOk, slotOk, dataPhaseOk, earlyOk, idleOk, detachedOk, requestOk, progressOk, ha, hq, hcmd, hcur,
    hearly, hacc, htimer, hfin]

theorem Running.engineOk {q : Request} (h : Running q s) : engineOk s = true := by
  obtain ⟨⟨hs, ⟨q', hq, hsame⟩, hroles, hcovered, hearly, hacc⟩, hslot, hearlySlot, hprogress⟩ := h
  have ha := (ready_iff.1 hs).2.1
  have hslotOk : slotOk s = true := slotOk_iff.2 fun r hr => by
    obtain ⟨c, hc, hshape⟩ := hsame.launchable (hslot r hr)
    exact ⟨c, by simpa [cmdOf, hq] using hc, hshape⟩
  have hdata : dataPhaseOk s = true := (dataPhaseOk_iff hq).2 fun hcur => hsame.covered (hcovered hcur)
  have hrequest : requestOk s = true := (requestOk_iff hq).2 (hsame.withRoles hroles)
  have hearlyOk : earlyOk s = true := by
    cases he : s.dataEarly with
    | false => simp [earlyOk, he]
    | true => simp [earlyOk, hearly he, hearlySlot he]
  simp [Machine.engineOk, hslotOk, hdata, hearlyOk, hacc, idleOk, detachedOk, hrequest, progressOk, ha, hq, hprogress]

/-- Each of the three cases meets the statements' invariant. -/
theorem engineOk_of_engineInv (h : EngineInv s) : engineOk s = true := by
  obtain h | h | ⟨q, h⟩ := h
  · exact h.engineOk
  · exact h.engineOk
  · exact h.engineOk

theorem engineInv_of_invOk (h : invOk s = true) (hf : s.fault = none) : EngineInv s := by
  simp only [invOk, hf, Option.isSome_none, Bool.false_or, Bool.and_eq_true] at h
  obtain ⟨⟨hp, -⟩, hengine⟩ := h
  exact engineInv_of_engineOk hf hp hengine

theorem invOk_iff : invOk s = true ↔
    paramsOk s.params = true ∧ memoryOk s = true ∧ (s.fault.isSome = true ∨ engineOk s = true) := by
  simp [invOk, and_assoc]

end

/-! ### The cases across updates of other fields -/

section
variable {q : Request} {s t : State}

/-- Nothing a running Request rests on changes. -/
structure SameEngine (s t : State) : Prop where
  ready : Machine.ready t = Machine.ready s
  params : t.params = s.params
  req : t.req = s.req
  curCmd : t.curCmd = s.curCmd
  curData : t.curData = s.curData
  dataEarly : t.dataEarly = s.dataEarly
  cursor : t.cursor = s.cursor
  timer : t.timer = s.timer
  finishPend : t.finishPend = s.finishPend

theorem Active.congr (h : Active q s) (ht : SameEngine s t) : Active q t where
  ready := ht.ready.trans h.ready
  req := by rw [ht.req]; exact h.req
  roles := h.roles
  covered hc := by rw [ht.params, ht.cursor]; exact h.covered (ht.curData.symm.trans hc)
  early he := ht.curData.trans (h.early (ht.dataEarly.symm.trans he))
  accOff := by rw [ht.cursor]; exact h.accOff

theorem Running.congr (h : Running q s) (ht : SameEngine s t) : Running q t where
  toActive := h.toActive.congr ht
  slot r hr := h.slot r (ht.curCmd.symm.trans hr)
  earlySlot he := by rw [ht.curCmd]; exact h.earlySlot (ht.dataEarly.symm.trans he)
  progress := by rw [ht.finishPend, ht.curCmd, ht.curData, ht.timer]; exact h.progress

theorem Idle.congr (h : Idle s) (ht : SameEngine s t) : Idle t where
  ready := ht.ready.trans h.ready
  req := ht.req.trans h.req
  curCmd := ht.curCmd.trans h.curCmd
  curData := ht.curData.trans h.curData
  dataEarly := ht.dataEarly.trans h.dataEarly
  accOff := by rw [ht.cursor]; exact h.accOff
  timer := ht.timer.trans h.timer
  finishPend := ht.finishPend.trans h.finishPend

end

end Sys2Proof.Machine

/-! What the rules make of a running Request (spec/41_command_engine.md, spec/42_data_session.md,
spec/44_dispatcher.md, spec/45_completion_watchdog.md): from a state of the invariant each ends in one, along the
moves of the engine it may make, or raises a fault that is not WindowAccess; it is never without an object it
names. -/

namespace Sys2Proof.Machine

/-! ### Safe ends of an operation -/

/-- The operation goes on in a state of P or raised a fault other than WindowAccess. -/
def Res.Safe (x : Res Unit) (P : State → Prop) : Prop :=
  match x with
  | .ok _ t => P t
  | .raised t => t.fault ≠ some .windowAccess
  | .stuck _ => False

theorem Res.Safe.mono {x : Res Unit} {P Q : State → Prop} (h : x.Safe P) (hPQ : ∀ t, P t → Q t) : x.Safe Q := by
  cases x with
  | ok a t => exact hPQ t h
  | raised t => exact h
  | stuck r => exact h

theorem Res.Safe.bind {x : Res Unit} {f : Unit → State → Res Unit} {P Q : State → Prop} (h : x.Safe P)
    (hf : ∀ t, P t → (f () t).Safe Q) : (x.bind f).Safe Q := by
  cases x with
  | ok a t => exact hf t h
  | raised t => exact h
  | stuck r => exact h

theorem done_safe {P : State → Prop} {t : State} (h : P t) : (done t).Safe P := h

theorem raise_safe {P : State → Prop} {c : FaultReason} (hc : c ≠ .windowAccess) (s : State) :
    (raise c s : Res Unit).Safe P := fun h => hc (Option.some.inj h)

/-! ### Objects of a running Request -/

section
variable {q : Request} {s : State} (h : Active q s)
include h

theorem Active.command {r : Role} {c : Command} (hc : Request.command q r = some c) :
    ∃ c', cmdOf s r = some c' ∧ c'.shapeCode = c.shapeCode ∧ c'.role = r := by
  obtain ⟨q', hq, hsame⟩ := h.req
  obtain ⟨c', hc', hshape, hrole⟩ := hsame.command hc
  exact ⟨c', by simpa [cmdOf, hq] using hc', hshape, hrole.trans (h.roles.2 r c hc)⟩

theorem Active.launchable {r : Role} (hr : Launchable q r) :
    ∃ c sh, cmdOf s r = some c ∧ Shape.ofCode c.shapeCode = some sh := by
  obtain ⟨c, hc, hshape⟩ := hr
  obtain ⟨c', hc', hcode, -⟩ := h.command hc
  obtain ⟨sh, hsh⟩ := Option.isSome_iff_exists.1 hshape
  exact ⟨c', sh, hc', hcode ▸ hsh⟩

theorem Active.data {d : Data} (hd : q.data = some d) : ∃ d', dataOf s = some d' ∧ d'.dir = d.dir ∧
    d'.blksz = d.blksz ∧ d'.blocks = d.blocks ∧ d'.sg = d.sg := by
  obtain ⟨q', hq, hsame⟩ := h.req
  obtain ⟨d', hd', hrest⟩ := hsame.data hd
  exact ⟨d', by simpa [dataOf, hq] using hd', hrest⟩

/-- The active Request's Data object, once prepare accepted it, is the one the issuer's part describes. -/
theorem Active.covered_of_dataOf {d : Data} (hd : dataOf s = some d) (hsizes : sizesOk d = true)
    (hrange : sgInRange s.params d = true) {c : Cursor} (hblocks : c.blocksLeft ≤ d.blocks)
    (hin : cursorIn d.sg c = true) (hleft : d.blksz * c.blocksLeft ≤ sgLeft d.sg c) : Covered s.params q c := by
  obtain ⟨q', hq, hsame⟩ := h.req
  exact hsame.symm.covered ⟨d, by simpa [dataOf, hq] using hd, hsizes, hrange, hblocks, hin, hleft⟩

/-- The Data object of an attached phase. -/
theorem Active.attachedData (hcur : s.curData = true) : ∃ d, dataOf s = some d ∧ sizesOk d = true ∧
    sgInRange s.params d = true ∧ s.cursor.blocksLeft ≤ d.blocks ∧ cursorIn d.sg s.cursor = true ∧
    d.blksz * s.cursor.blocksLeft ≤ sgLeft d.sg s.cursor := by
  obtain ⟨q', hq, hsame⟩ := h.req
  obtain ⟨d, hd, hrest⟩ := hsame.covered (h.covered hcur)
  exact ⟨d, by simpa [dataOf, hq] using hd, hrest⟩

theorem Active.updCmd (r : Role) {f : Command → Command} (hf : ∀ c, sameCommand c (f c)) :
    Active q (updCmd r f s) := by
  obtain ⟨q', hq, hsame⟩ := h.req
  refine { h with req := ⟨Request.mapCommand q' r f, by simp [Machine.updCmd, hq], ?_⟩ }
  exact (issuerPart_mapCommand q' r hf).trans hsame

theorem Active.updData {f : Data → Data} (hf : ∀ d, (sameData d (f d))) : Active q (updData f s) := by
  obtain ⟨q', hq, hsame⟩ := h.req
  refine { h with req := ⟨Request.mapData q' f, by simp [Machine.updData, hq], ?_⟩ }
  exact (issuerPart_mapData q' hf).trans hsame

end

/-! ### Prepare and issue (R125, R150) -/

theorem issue_eq {s : State} {r : Role} {c : Command} (hc : cmdOf s r = some c) : issue r s =
    (if hasData s c then prepareData (slotTaken r c s) else done (slotTaken r c s)).bind fun _ t =>
      sendCommand c t := by
  simp [issue, hc, slotTaken]

theorem prepareFault_ne_windowAccess {p : Params} {d : Data} : prepareFault p d ≠ some .windowAccess := by
  unfold prepareFault
  split_ifs <;> decide

theorem prepareFault_none {p : Params} {d : Data} (h : prepareFault p d = none) :
    sizesOk d = true ∧ sgInRange p d = true ∧ sgCovers d = true := by
  unfold prepareFault at h
  split_ifs at h with hsizes hrange hcovers
  exact ⟨by simpa using hsizes, by simpa using hrange, by simpa using hcovers⟩

/-- A Data phase prepare attaches stands at its list's start, and the list covers its blocks. -/
theorem Active.dataPrepared {q : Request} {s : State} (h : Active q s) {d : Data} (hd : dataOf s = some d)
    (hf : prepareFault s.params d = none) : Active q (dataPrepared d s) := by
  obtain ⟨hsizes, hrange, hcovers⟩ := prepareFault_none hf
  have hleft : d.blksz * d.blocks ≤ sgLeft d.sg { blocksLeft := d.blocks, sgIdx := 0, sgOff := 0, accOff := 0 } := by
    simpa [sgCovers, sgLeft] using hcovers
  have hin : cursorIn d.sg { blocksLeft := d.blocks, sgIdx := 0, sgOff := 0, accOff := 0 } = true := by
    cases hsg : d.sg <;> simp [cursorIn]
  have hcovered := h.covered_of_dataOf hd hsizes hrange
    (c := { blocksLeft := d.blocks, sgIdx := 0, sgOff := 0, accOff := 0 }) (Nat.le_refl _) hin hleft
  have hupd := h.updData (f := fun x => { x with bytesXfered := 0 }) fun _ => ⟨rfl, rfl, rfl, rfl, rfl⟩
  exact { hupd with covered := fun _ => hcovered, early := nofun, accOff := rfl }

theorem sendCommand_safe {c : Command} {s : State} {P : State → Prop} (hs : ready s = true)
    (hP : ∀ sh, Shape.ofCode c.shapeCode = some sh → P (launched sh (commandWritten c s))) :
    (sendCommand c s).Safe P := by
  obtain ⟨-, ha, hp⟩ := ready_iff.1 hs
  by_cases hop : 64 ≤ c.opcode
  · rw [sendCommand_opcodeFault hop]
    exact raise_safe (by decide) _
  · have hlt : c.opcode < 64 := by omega
    cases hsh : Shape.ofCode c.shapeCode with
    | none =>
      rw [sendCommand_writes ha hp hlt, launch_shapeFault hsh]
      exact raise_safe (by decide) _
    | some sh =>
      rw [sendCommand_known ha hp hlt hsh]
      exact done_safe (hP sh hsh)

/-- What a launch leaves: the command outstanding, completion not scheduled by it, and dataEarly clear beside a
primary command, else the Data phase as it was. -/
structure Launched (q : Request) (r : Role) (s t : State) : Prop where
  running : Running q t
  curCmd : t.curCmd = some r
  finishPend : t.finishPend = s.finishPend
  primary : r = .primary → t.dataEarly = false
  other : r ≠ .primary → t.curData = s.curData ∧ t.dataEarly = s.dataEarly

/-- R125: ISSUE launches the command of a role the Request has, or faults. -/
theorem issue_safe {q : Request} {s : State} (h : Active q s) {r : Role} {c0 : Command}
    (hc0 : Request.command q r = some c0) : (issue r s).Safe (Launched q r s) := by
  obtain ⟨c, hc, hcode, hrole⟩ := h.command hc0
  have hlaunchable : ∀ sh, Shape.ofCode c.shapeCode = some sh → Launchable q r := fun sh hsh =>
    ⟨c0, hc0, by rw [← hcode, hsh]; rfl⟩
  have hslot : Active q (slotTaken r c s) := { h with }
  rw [issue_eq hc]
  cases hdata : hasData s c with
  | false =>
    refine sendCommand_safe (s := slotTaken r c s) h.ready fun sh hsh => ?_
    have hearly : r = .primary → s.dataEarly = false := fun hr => by
      have hnone : dataOf s = none := by
        rw [hr] at hrole
        simpa [hasData, hrole] using hdata
      cases he : s.dataEarly with
      | false => rfl
      | true =>
        obtain ⟨d, hd, -⟩ := h.attachedData (h.early he)
        exact nomatch hnone.symm.trans hd
    exact ⟨⟨{ hslot with }, fun _ hr' => Option.some.inj hr' ▸ hlaunchable sh hsh, fun _ => rfl,
      .inr ⟨.inl rfl, rfl⟩⟩, rfl, rfl, hearly, fun _ => ⟨rfl, rfl⟩⟩
  | true =>
    obtain ⟨hprimary, hsome⟩ : c.role = .primary ∧ (dataOf s).isSome = true := by simpa [hasData] using hdata
    obtain ⟨d, hd⟩ := Option.isSome_iff_exists.1 hsome
    obtain ⟨-, ha, hp⟩ := ready_iff.1 h.ready
    cases hfault : prepareFault s.params d with
    | some f =>
      have hne : f ≠ .windowAccess := fun hf => prepareFault_ne_windowAccess (hf ▸ hfault)
      rw [if_pos rfl, prepareData_refused (s := slotTaken r c s) hd hfault, Res.bind_raise]
      exact raise_safe hne _
    | none =>
      have hprepared := hslot.dataPrepared hd hfault
      rw [if_pos rfl, prepareData_accepted (s := slotTaken r c s) ha hp hd hfault, Res.bind_done]
      refine sendCommand_safe hprepared.ready fun sh hsh => ?_
      exact ⟨⟨{ hprepared with }, fun _ hr' => Option.some.inj hr' ▸ hlaunchable sh hsh, fun _ => rfl,
        .inr ⟨.inl rfl, rfl⟩⟩, rfl, rfl, fun _ => rfl, fun hne => absurd (hrole.symm.trans hprimary) hne⟩

/-! ### Finish (R166 to R171) -/

/-- The abort sequences complete and leave the engine as it was. -/
theorem abortBoth_sameEngine {s : State} (hs : ready s = true) : ∃ u, abortBoth s = done u ∧ SameEngine s u := by
  obtain ⟨-, u, -, -, -, hu, hboth⟩ := abortBoth_completes hs
  have hmoves : (done u).Moves abortWrites s := hboth ▸ abortBoth_moves s
  obtain ⟨hmoved, -⟩ := hmoves
  have hframe : Agrees abortWrites s u := hmoved.frame (ready_iff.1 hs).2.2
  exact ⟨u, hboth, hu.trans hs.symm, hmoved.params, hframe .req (by decide), hframe .curCmd (by decide),
    hframe .curData (by decide), hframe .dataEarly (by decide), hframe .cursor (by decide),
    hframe .timer (by decide), hframe .finishPend (by decide)⟩

theorem Active.dataClosed {q : Request} {s : State} (h : Active q s) (e : Err) : Active q (dataClosed e s) := by
  have hupd := h.updData (f := closeData e) fun _ => ⟨rfl, rfl, rfl, rfl, rfl⟩
  exact { hupd with covered := nofun, early := nofun }

/-- What finish leaves: no Data phase, and completion scheduled or the stop command outstanding. -/
structure Finished (q : Request) (s t : State) : Prop where
  running : Running q t
  curData : t.curData = false
  dataEarly : t.dataEarly = false
  ended : t.finishPend = true ∨ t.finishPend = s.finishPend ∧ t.curCmd = some .stop

theorem Launched.finished {q : Request} {s u t : State} (h : Launched q .stop u t) (hcur : u.curData = false)
    (hearly : u.dataEarly = false) (hfin : u.finishPend = s.finishPend) : Finished q s t := by
  obtain ⟨hdata, hdearly⟩ := h.other (by decide)
  exact ⟨h.running, hdata.trans hcur, hdearly.trans hearly, .inr ⟨h.finishPend.trans hfin, h.curCmd⟩⟩

/-- R166: FINISH_DATA schedules the completion or issues the stop command. -/
theorem finishData_safe {q : Request} {s : State} (h : Active q s) (hslot : ∀ r, s.curCmd = some r → Launchable q r)
    {d : Data} (hd : dataOf s = some d) (e : Err) : (finishData e s).Safe (Finished q s) := by
  obtain ⟨q', hq, hsame⟩ := h.req
  have hqd : q'.data = some d := by simpa [dataOf, hq] using hd
  have hclosed := h.dataClosed e
  cases hstop : stopWanted s.params q' d e with
  | false =>
    rw [finishData_noStop hq hqd hstop]
    exact ⟨⟨{ hclosed with }, hslot, nofun, .inl rfl⟩, rfl, rfl, .inl rfl⟩
  | true =>
    obtain ⟨c', hc'⟩ := Option.ne_none_iff_exists'.1 (stopWanted_iff.1 hstop).1
    obtain ⟨c, hc, -⟩ := hsame.symm.command (r := .stop) (c := c') (by simp [Request.command, hqd, hc'])
    by_cases he : e = .ok
    · subst he
      rw [finishData_stop_ok hq hqd hstop]
      exact (issue_safe hclosed hc).mono fun t ht => ht.finished rfl rfl rfl
    · obtain ⟨u, hboth, hu⟩ := abortBoth_sameEngine hclosed.ready
      rw [finishData_stop_error hq hqd hstop he, hboth, Res.bind_done]
      exact (issue_safe (hclosed.congr hu) hc).mono fun t ht => ht.finished hu.curData hu.dataEarly hu.finishPend

/-! ### The moves of the engine in one handler (R21, R226) -/

/-- The slot and the Data phase stay as they are. -/
def Stays (s t : State) : Prop := t.curCmd = s.curCmd ∧ t.curData = s.curData ∧ t.dataEarly = s.dataEarly

/-- The SBC command's response issued the primary command (R142). -/
def PrimaryIssued (s t : State) : Prop := s.curCmd = some .sbc ∧ t.curCmd = some .primary ∧ t.dataEarly = false

/-- The Data phase ended and the stop command was issued (R170). -/
def StopIssued (s t : State) : Prop :=
  s.curData = true ∧ t.curCmd = some .stop ∧ t.curData = false ∧ t.dataEarly = false

/-- The response came while the data runs (R145). -/
def Responded (s t : State) : Prop :=
  s.curCmd.isSome = true ∧ s.curData = true ∧ s.dataEarly = false ∧
    t.curCmd = none ∧ t.curData = true ∧ t.dataEarly = false

/-- The data ended before the response (R163). -/
def DataCame (s t : State) : Prop :=
  s.curCmd.isSome = true ∧ s.curData = true ∧ t.curCmd = s.curCmd ∧ t.curData = true ∧ t.dataEarly = true

/-- Completion is scheduled, or it is as it was and the engine made the move. -/
def Moves (move : State → State → Prop) (s t : State) : Prop :=
  t.finishPend = true ∨ t.finishPend = s.finishPend ∧ move s t

/-- The moves of a command interrupt (R133 to R145). -/
def CmdMove : State → State → Prop := Moves fun s t =>
  Stays s t ∨ PrimaryIssued s t ∨ (s.curCmd.isSome = true ∧ StopIssued s t) ∨ Responded s t

/-- The moves of a data interrupt (R156 to R165). -/
def DataMove : State → State → Prop := Moves fun s t =>
  Stays s t ∨ PrimaryIssued s t ∨ StopIssued s t ∨ DataCame s t

theorem stays_refl (s : State) : Stays s s := ⟨rfl, rfl, rfl⟩

/-! ### The command interrupt (R133 to R145) -/

theorem Active.captured {q : Request} {s : State} (h : Active q s) (r : Role) (sh : Shape) :
    Active q (captured r sh s) := by
  have hupd := h.updCmd r (f := fun c =>
    { c with resp := responseStored s.params sh (drawAt s) c.resp, error := .ok }) fun _ => ⟨rfl, rfl, rfl, rfl, rfl⟩
  exact { hupd with }

/-- R140: finish_command goes on by role and Data phase. -/
theorem finishCommand_safe {q : Request} {s : State} (h : Running q s) {r : Role} (hcur : s.curCmd = some r) :
    (finishCommand s).Safe (fun t => Running q t ∧ CmdMove s t ∧ (s.curData = false → DataMove s t)) := by
  obtain ⟨c, sh, hc, hsh⟩ := h.launchable (h.slot r hcur)
  have hcap := h.captured r sh
  rw [finishCommand_eq h.ready hcur hc hsh]
  by_cases hr : r = .sbc
  · subst hr
    obtain ⟨cp, hcp⟩ := Option.isSome_iff_exists.1 h.roles.1
    rw [afterCommand_sbc]
    refine (issue_safe hcap (r := .primary) hcp).mono fun t ht => ?_
    have hissued : PrimaryIssued s t := ⟨hcur, ht.curCmd, ht.primary rfl⟩
    exact ⟨ht.running, .inr ⟨ht.finishPend, .inr (.inl hissued)⟩, fun _ => .inr ⟨ht.finishPend, .inr (.inl hissued)⟩⟩
  · cases hdata : s.curData with
    | false =>
      rw [afterCommand_noData (s := Machine.captured r sh s) hr hdata]
      exact ⟨⟨{ hcap with }, nofun, fun he => (nomatch hdata.symm.trans (h.early he)), .inl rfl⟩, .inl rfl,
        fun _ => .inl rfl⟩
    | true =>
      cases hearly : s.dataEarly with
      | true =>
        obtain ⟨d, hd, -⟩ := hcap.attachedData hdata
        rw [afterCommand_early (s := Machine.captured r sh s) hr hdata hearly hd]
        refine (finishData_safe hcap nofun hd d.error).mono fun t ht => ⟨ht.running, ?_, nofun⟩
        exact ht.ended.imp_right fun ⟨hfin, hstop⟩ =>
          ⟨hfin, .inr (.inr (.inl ⟨by simp [hcur], hdata, hstop, ht.curData, ht.dataEarly⟩))⟩
      | false =>
        rw [afterCommand_running (s := Machine.captured r sh s) hr hdata hearly]
        have htimer : s.finishPend = true ∨ s.timer.isSome = true := h.progress.imp_right And.right
        refine ⟨⟨hcap, nofun, fun he => (nomatch hearly.symm.trans he), htimer.imp_right fun ht => ⟨.inr hdata, ht⟩⟩,
          .inr ⟨rfl, .inr (.inr (.inr ⟨by simp [hcur], hdata, hearly, rfl, hdata, hearly⟩))⟩, nofun⟩

theorem sameEngine_logEvent (k : LogKind) (s : State) : SameEngine s (logEvent k s) :=
  ⟨rfl, rfl, rfl, rfl, rfl, rfl, rfl, rfl, rfl⟩

theorem sameEngine_busyLogged (c : Command) (s : State) : SameEngine s (busyLogged c s) := by
  unfold busyLogged
  split <;> exact ⟨rfl, rfl, rfl, rfl, rfl, rfl, rfl, rfl, rfl⟩

theorem SameEngine.trans {s t u : State} (h : SameEngine s t) (h' : SameEngine t u) : SameEngine s u where
  ready := h'.ready.trans h.ready
  params := h'.params.trans h.params
  req := h'.req.trans h.req
  curCmd := h'.curCmd.trans h.curCmd
  curData := h'.curData.trans h.curData
  dataEarly := h'.dataEarly.trans h.dataEarly
  cursor := h'.cursor.trans h.cursor
  timer := h'.timer.trans h.timer
  finishPend := h'.finishPend.trans h.finishPend

theorem SameEngine.stays {s t : State} (h : SameEngine s t) : Stays s t := ⟨h.curCmd, h.curData, h.dataEarly⟩

section
variable {s t u : State} (hstays : Stays s t) (hfin : t.finishPend = s.finishPend)
include hstays hfin

theorem CmdMove.after_stays (h : CmdMove t u) : CmdMove s u := by
  obtain ⟨hcmd, hdata, hearly⟩ := hstays
  simpa only [CmdMove, Moves, Stays, PrimaryIssued, StopIssued, Responded, hcmd, hdata, hearly, hfin] using h

theorem DataMove.after_stays (h : DataMove t u) : DataMove s u := by
  obtain ⟨hcmd, hdata, hearly⟩ := hstays
  simpa only [DataMove, Moves, Stays, PrimaryIssued, StopIssued, DataCame, hcmd, hdata, hearly, hfin] using h

omit hstays hfin in
theorem DataMove.before_stays (h : DataMove s t) (hstays : Stays t u) (hfin : u.finishPend = t.finishPend) :
    DataMove s u := by
  obtain ⟨hcmd, hdata, hearly⟩ := hstays
  simpa only [DataMove, Moves, Stays, PrimaryIssued, StopIssued, DataCame, hcmd, hdata, hearly, hfin] using h

theorem cmdMove_of_stays : CmdMove s t := .inr ⟨hfin, .inl hstays⟩

theorem dataMove_of_stays : DataMove s t := .inr ⟨hfin, .inl hstays⟩

end

/-- A Command that takes an error schedules the completion, whatever was on its way (R136, R137, R159, R221). -/
theorem Active.failed {q : Request} {s : State} (h : Active q s) (hslot : ∀ r, s.curCmd = some r → Launchable q r)
    (hearly : s.dataEarly = true → s.curCmd.isSome = true) (r : Role) (e : Err) :
    Running q (scheduleWork .finish (Machine.updCmd r (fun x => { x with error := e }) s)) := by
  have hupd := h.updCmd r (f := fun x => { x with error := e }) fun _ => ⟨rfl, rfl, rfl, rfl, rfl⟩
  exact ⟨{ hupd with }, hslot, hearly, .inl rfl⟩

section
variable {q : Request} {s : State} (h : Running q s)
include h

/-- R133: a command interrupt leaves a running Request on its way. -/
theorem onCommandInterrupt_safe (mask : Word) :
    (onCommandInterrupt mask s).Safe (fun t => Running q t ∧ CmdMove s t) := by
  cases hcur : s.curCmd with
  | none =>
    have hsame := sameEngine_logEvent .spuriousCmd s
    rw [onCommandInterrupt_spurious hcur]
    exact ⟨h.congr hsame, cmdMove_of_stays hsame.stays hsame.finishPend⟩
  | some r =>
    obtain ⟨c, -, hc, -⟩ := h.launchable (h.slot r hcur)
    by_cases he : cmdError s.params mask = .ok
    · have hsame := sameEngine_busyLogged c s
      by_cases hb : mask &&& bitMask s.params.stCmdComplete = 0
      · rw [onCommandInterrupt_incomplete hcur hc he hb]
        exact ⟨h.congr hsame, cmdMove_of_stays hsame.stays hsame.finishPend⟩
      · rw [onCommandInterrupt_complete hcur hc he hb]
        exact (finishCommand_safe (h.congr hsame) (hsame.curCmd.trans hcur)).mono fun t ht =>
          ⟨ht.1, ht.2.1.after_stays hsame.stays hsame.finishPend⟩
    · rw [onCommandInterrupt_error hcur hc rfl he]
      exact ⟨h.toActive.failed h.slot h.earlySlot r _, .inl rfl⟩

/-! ### The data interrupt (R156 to R165) -/

/-- R157 to R159: with no Data phase a data interrupt ends a busy command, or logs, or forces a Timeout. -/
theorem onDataNoPhase_safe (hcur : s.curData = false) (mask : Word) :
    (onDataNoPhase mask s).Safe (fun t => Running q t ∧ DataMove s t) := by
  have hsame := sameEngine_logEvent .spuriousData s
  by_cases hbusy : busyOutstanding s = true ∧ mask &&& bitMask s.params.stXferComplete ≠ 0
  · obtain ⟨r, -, hr, -, -⟩ := busyOutstanding_iff.1 hbusy.1
    rw [onDataNoPhase_busy hbusy.1 hbusy.2]
    exact (finishCommand_safe h hr).mono fun t ht => ⟨ht.1, ht.2.2 hcur⟩
  · by_cases hquiet : s.curCmd = none ∨ mask &&& dataErr s.params = 0
    · rw [onDataNoPhase_spurious hbusy hquiet]
      exact ⟨h.congr hsame, dataMove_of_stays hsame.stays hsame.finishPend⟩
    · obtain ⟨hcmd, herr⟩ := not_or.1 hquiet
      obtain ⟨r, hr⟩ := Option.ne_none_iff_exists'.1 hcmd
      have hlogged := h.congr hsame
      obtain ⟨c, -, hc, -⟩ := hlogged.launchable (h.slot r hr)
      rw [onDataNoPhase_error hbusy hr herr, forceTimeout_command hc]
      exact ⟨hlogged.toActive.failed hlogged.slot hlogged.earlySlot r _, .inl rfl⟩

end

/-! ### One block of a covered Data phase (R175 to R183) -/

/-- n bytes on, the cursor stands in the list with n bytes fewer left. -/
theorem cursorAfter_in {sg : List SgEntry} {n : Nat} {c : Cursor} (hin : cursorIn sg c = true)
    (hn : n ≤ sgLeft sg c) : cursorIn sg (cursorAfter sg n c) = true ∧
      sgLeft sg (cursorAfter sg n c) + n = sgLeft sg c := by
  induction n generalizing c with
  | zero => exact ⟨hin, rfl⟩
  | succ n ih =>
    have hoff := offInEntry_of_cursorIn hin
    have hseek := sgLeft_seek hoff
    cases he : sg[(seek sg c).sgIdx]? with
    | none =>
      have hzero := sgLeft_pastEnd he
      omega
    | some e =>
      have hlt : (seek sg c).sgOff < e.len := seek_sgOff_lt hoff he
      have hinNext : cursorIn sg (advance sg c) = true := by
        have hat : sg[(advance sg c).sgIdx]? = some e := he
        simp only [cursorIn, hat, decide_eq_true_eq]
        exact hlt
      have hleft : sgLeft sg (advance sg c) = sgLeft sg (seek sg c) - 1 := Nat.sub_add_eq _ _ _
      obtain ⟨hend, hcount⟩ := ih hinNext (by omega)
      rw [cursorAfter_succ]
      exact ⟨hend, by omega⟩

/-- PIO moves one block of the phase, of which the list then still covers the blocks left. -/
theorem transferPio_safe {q : Request} {s : State} (h : Running q s) (hcur : s.curData = true) :
    (transferPio s).Safe (fun t => Running q t ∧ Stays s t ∧ t.finishPend = s.finishPend ∧ t.req = s.req) := by
  obtain ⟨d, hd, hsizes, hrange, hblocks, hin, hleft⟩ := h.attachedData hcur
  cases hn : s.cursor.blocksLeft with
  | zero =>
    rw [transferPio_zero hn]
    exact ⟨h, stays_refl s, rfl, rfl⟩
  | succ k =>
    have hblock : d.blksz + d.blksz * k ≤ sgLeft d.sg s.cursor := by
      rw [hn, Nat.mul_succ] at hleft
      omega
    have hreach : reaches s d = true := reaches_eq_true_iff.2
      (length_blockAddrs s.params (offInEntry_of_cursorIn hin) (by omega))
    obtain ⟨t, hmove, ht, hcursor⟩ := moveBlock_ok h.ready hreach
    have hmoves : (done t).Moves pioWrites s := hmove ▸ moveBlock_moves s d
    obtain ⟨hmoved, -⟩ := hmoves
    have hframe : Agrees pioWrites s t := hmoved.frame (ready_iff.1 h.ready).2.2
    have hfields : t.attached = s.attached ∧ t.req = s.req ∧ t.curCmd = s.curCmd ∧ t.curData = s.curData ∧
        t.dataEarly = s.dataEarly ∧ t.timer = s.timer ∧ t.finishPend = s.finishPend :=
      ⟨hframe .attached (by decide), hframe .req (by decide), hframe .curCmd (by decide), hframe .curData (by decide),
        hframe .dataEarly (by decide), hframe .timer (by decide), hframe .finishPend (by decide)⟩
    obtain ⟨ha, hreq, hcmd, hdata, hearly, htimer, hfin⟩ := hfields
    have hready : ready t = true := by
      obtain ⟨-, ha', hp⟩ := ready_iff.1 h.ready
      exact ready_iff.2 ⟨ht, ha.trans ha', hmoved.params ▸ hp⟩
    have hkept : t.cursor.blocksLeft = k + 1 := by
      rw [hcursor, ← hn]
      exact cursorAfter_blocksLeft _ _ _
    obtain ⟨hinNext, hleftNext⟩ := cursorAfter_in hin (n := d.blksz) (by omega)
    have hcovered : Covered s.params q { t.cursor with blocksLeft := t.cursor.blocksLeft - 1 } := by
      refine h.covered_of_dataOf hd hsizes hrange ?_ ?_ ?_
      · show t.cursor.blocksLeft - 1 ≤ d.blocks
        omega
      · rw [hcursor]
        exact hinNext
      · have hsame : sgLeft d.sg { t.cursor with blocksLeft := t.cursor.blocksLeft - 1 } =
            sgLeft d.sg (cursorAfter d.sg d.blksz s.cursor) := by
          rw [hcursor]
          rfl
        have hk : t.cursor.blocksLeft - 1 = k := by omega
        show d.blksz * (t.cursor.blocksLeft - 1) ≤ _
        rw [hsame, hk]
        omega
    have hacc : t.cursor.accOff = 0 := by rw [hcursor]
    rw [transferPio_block (by omega) hd hmove]
    refine ⟨⟨⟨hready, ?_, h.roles, fun _ => ?_, fun he => ?_, hacc⟩, fun r hr => ?_, fun he => ?_, ?_⟩,
      ⟨hcmd, hdata, hearly⟩, hfin, hreq⟩
    · show ∃ q', t.req = some q' ∧ SameIssuer q q'
      rw [hreq]
      exact h.req
    · show Covered t.params q _
      rw [hmoved.params]
      exact hcovered
    · exact hdata.trans hcur
    · exact h.slot r (hcmd.symm.trans hr)
    · exact (congrArg Option.isSome hcmd).trans (h.earlySlot (hearly.symm.trans he))
    · show t.finishPend = true ∨ (t.curCmd.isSome = true ∨ t.curData = true) ∧ t.timer.isSome = true
      rw [hfin, hcmd, hdata, htimer]
      exact h.progress

section
variable {q : Request} {s : State} (h : Running q s)
include h

/-- R163 to R165: transfer-complete marks the data early, starts the next block, or finishes. -/
theorem onTransferComplete_safe (hcur : s.curData = true) {d : Data} (hd : dataOf s = some d) :
    (onTransferComplete d s).Safe (fun t => Running q t ∧ DataMove s t) := by
  unfold onTransferComplete
  split
  case isTrue hcmd =>
    exact ⟨⟨{ h.toActive with early := fun _ => hcur }, h.slot, fun _ => hcmd, h.progress⟩,
      .inr ⟨rfl, .inr (.inr (.inr ⟨hcmd, hcur, rfl, hcur, rfl⟩))⟩⟩
  case isFalse =>
    split
    · rw [triggerBlock_ok h.ready]
      exact ⟨{ h with }, .inr ⟨rfl, .inl (stays_refl s)⟩⟩
    · refine (finishData_safe h.toActive h.slot hd .ok).mono fun t ht => ⟨ht.running, ?_⟩
      exact ht.ended.imp_right fun ⟨hfin, hstop⟩ =>
        ⟨hfin, .inr (.inr (.inl ⟨hcur, hstop, ht.curData, ht.dataEarly⟩))⟩

/-- R156: a data interrupt leaves a running Request on its way. -/
theorem onDataInterrupt_safe (mask : Word) :
    (onDataInterrupt mask s).Safe (fun t => Running q t ∧ DataMove s t) := by
  cases hcur : s.curData with
  | false =>
    rw [onDataInterrupt_noPhase hcur]
    exact onDataNoPhase_safe h hcur mask
  | true =>
    obtain ⟨d, hd, -⟩ := h.attachedData hcur
    by_cases he : dataError s.params mask = .ok
    · have hmoved : (if movesBlock s mask then transferPio s else done s).Safe
          (fun t => Running q t ∧ Stays s t ∧ t.finishPend = s.finishPend ∧ t.req = s.req) := by
        split
        · exact transferPio_safe h hcur
        · exact ⟨h, stays_refl s, rfl, rfl⟩
      rw [onDataInterrupt_ok hcur hd he]
      refine hmoved.bind fun t ⟨ht, hstays, hfin, hreq⟩ => ?_
      split
      · have hcur' : t.curData = true := hstays.2.1.trans hcur
        exact (onTransferComplete_safe ht hcur' ((dataOf_congr hreq).trans hd)).mono fun u hu =>
          ⟨hu.1, hu.2.after_stays hstays hfin⟩
      · exact ⟨ht, dataMove_of_stays hstays hfin⟩
    · rw [onDataInterrupt_error hcur hd rfl he]
      refine (finishData_safe h.toActive h.slot hd _).mono fun t ht => ⟨ht.running, ?_⟩
      exact ht.ended.imp_right fun ⟨hfin, hstop⟩ =>
        ⟨hfin, .inr (.inr (.inl ⟨hcur, hstop, ht.curData, ht.dataEarly⟩))⟩

end

/-! ### The dispatcher (R190) -/

theorem sameEngine_statusRead (s : State) : SameEngine s (statusRead s) :=
  ⟨rfl, rfl, rfl, rfl, rfl, rfl, rfl, rfl, rfl⟩

theorem sameEngine_acknowledged (bits : Word) (s : State) : SameEngine s (acknowledged bits s) :=
  ⟨rfl, rfl, rfl, rfl, rfl, rfl, rfl, rfl, rfl⟩

theorem sameEngine_scheduleCard (s : State) : SameEngine s (scheduleWork .card s) :=
  ⟨rfl, rfl, rfl, rfl, rfl, rfl, rfl, rfl, rfl⟩

/-- A category with no bit does nothing, else its handler runs on the bits written back. -/
theorem acknowledge_safe {bits : Word} {handler : State → Res Unit} {s : State} {P : State → Prop} (hs : ready s = true)
    (h0 : P s) (hh : (handler (acknowledged bits s)).Safe P) : (acknowledge bits handler s).Safe P := by
  by_cases hb : bits = 0
  · rw [acknowledge_none hb]
    exact h0
  · rw [acknowledge_bits hs hb]
    exact hh

theorem logRemaining_eq (m : Word) (s : State) : ∃ t, logRemaining m s = done t ∧ SameEngine s t := by
  simp only [logRemaining, logEvent_if_overlaps]
  exact ⟨_, rfl, rfl, rfl, rfl, rfl, rfl, rfl, rfl, rfl, rfl⟩

section
variable {q : Request} {s : State} (h : Running q s)
include h

theorem dispatchFront_safe (st : Word) :
    (dispatchFront st s).Safe (fun t => Running q t ∧ CmdMove s t) := by
  have hcard : (acknowledge (cardPart s.params st) (fun t => done (scheduleWork .card t)) s).Safe (SameEngine s) :=
    acknowledge_safe h.ready ⟨rfl, rfl, rfl, rfl, rfl, rfl, rfl, rfl, rfl⟩ ⟨rfl, rfl, rfl, rfl, rfl, rfl, rfl, rfl, rfl⟩
  refine hcard.bind fun t ht => ?_
  have hrun := h.congr ht
  exact acknowledge_safe hrun.ready ⟨hrun, cmdMove_of_stays ht.stays ht.finishPend⟩
    ((onCommandInterrupt_safe (hrun.congr (sameEngine_acknowledged _ t)) _).mono fun u hu =>
      ⟨hu.1, hu.2.after_stays (s := s) ht.stays ht.finishPend⟩)

theorem dispatchBack_safe (st : Word) :
    (dispatchBack st s).Safe (fun t => Running q t ∧ DataMove s t) := by
  have hdata : (acknowledge (dataPart s.params st) (onDataInterrupt (dataPart s.params st)) s).Safe
      (fun t => Running q t ∧ DataMove s t) :=
    acknowledge_safe h.ready ⟨h, dataMove_of_stays (stays_refl s) rfl⟩
      (onDataInterrupt_safe (h.congr (sameEngine_acknowledged _ s)) _)
  refine hdata.bind fun t ⟨ht, hmove⟩ => ?_
  refine acknowledge_safe ht.ready ⟨ht, hmove⟩ ?_
  obtain ⟨u, hu, hsame⟩ := logRemaining_eq (restPart t.params st) (acknowledged (restPart t.params st) t)
  rw [hu]
  refine ⟨ht.congr ((sameEngine_acknowledged _ t).trans hsame), ?_⟩
  exact hmove.before_stays hsame.stays hsame.finishPend

/-- R190: a dispatch leaves a running Request on its way, by a move of the command interrupt and one of the data
interrupt. -/
theorem dispatch_safe : (dispatch s).Safe
    (fun t => Running q t ∧ ∃ m, Running q m ∧ CmdMove s m ∧ DataMove m t) := by
  have hread := h.congr (sameEngine_statusRead s)
  cases hw : spuriousWord s.win.intStatus with
  | true =>
    rw [dispatch_spurious h.ready hw]
    exact ⟨hread, s, h, cmdMove_of_stays (stays_refl s) rfl, dataMove_of_stays (stays_refl s) rfl⟩
  | false =>
    rw [dispatch_eq h.ready hw, dispatchWord]
    exact (dispatchFront_safe hread _).bind fun m ⟨hm, hcmd⟩ =>
      (dispatchBack_safe hm _).mono fun t ⟨ht, hdata⟩ => ⟨ht, m, hm, hcmd, hdata⟩

/-! ### The watchdog and the request-finish work (R205, R218) -/

/-- R218: a watchdog fire schedules the completion, or ends the Data phase by the stop command. -/
theorem watchdogFire_safe :
    (watchdogFire s).Safe (fun t => Running q t ∧ Moves StopIssued s t) := by
  obtain ⟨q', hq, -⟩ := h.req
  have hoff : Active q { s with timer := none } := { h.toActive with }
  cases hcur : s.curData with
  | true =>
    obtain ⟨d, hd, -⟩ := hoff.attachedData hcur
    rw [watchdogFire_data hq hcur]
    refine (finishData_safe hoff h.slot hd .timeout).mono fun t ht => ⟨ht.running, ?_⟩
    exact ht.ended.imp_right fun ⟨hfin, hstop⟩ => ⟨hfin, hcur, hstop, ht.curData, ht.dataEarly⟩
  | false =>
    have hlaunchable : ∃ c, Request.command q (s.curCmd.getD .primary) = some c := by
      cases hcmd : s.curCmd with
      | none => exact Option.isSome_iff_exists.1 h.roles.1
      | some r =>
        obtain ⟨c, hc, -⟩ := h.slot r hcmd
        exact ⟨c, hc⟩
    obtain ⟨c, hc⟩ := hlaunchable
    obtain ⟨c', hc', -⟩ := hoff.command hc
    rw [watchdogFire_noData hq hcur, forceTimeout_command hc']
    exact ⟨hoff.failed h.slot h.earlySlot _ _, .inl rfl⟩

/-- R205: the request-finish work ends the Request and leaves the block idle. -/
theorem requestFinish_safe : (requestFinish s).Safe Idle := by
  obtain ⟨q', hq, -⟩ := h.req
  cases habort : needsAbort q' with
  | false =>
    rw [requestFinish_clean hq habort]
    exact ⟨h.ready, rfl, rfl, rfl, rfl, rfl, rfl, rfl⟩
  | true =>
    obtain ⟨u, hboth, hu⟩ := abortBoth_sameEngine (s := cancelTimer { s with finishPend := false }) h.ready
    rw [requestFinish_aborts hq habort, hboth, Res.bind_done]
    exact ⟨hu.ready.trans h.ready, rfl, rfl, rfl, rfl, rfl, hu.timer, hu.finishPend⟩

end

/-! ### An idle block -/

/-- A dispatch while no Request is active only acknowledges and logs (R135, R158). -/
theorem Idle.dispatch_safe {s : State} (h : Idle s) : (dispatch s).Safe Idle := by
  have hcmd : ∀ (t : State) (mask : Word), Idle t → (onCommandInterrupt mask t).Safe Idle := fun t mask ht => by
    rw [onCommandInterrupt_spurious ht.curCmd]
    exact ht.congr (sameEngine_logEvent _ t)
  have hdata : ∀ (t : State) (mask : Word), Idle t → (onDataInterrupt mask t).Safe Idle := fun t mask ht => by
    have hnotBusy : ¬ (busyOutstanding t = true ∧ mask &&& bitMask t.params.stXferComplete ≠ 0) := fun hb => by
      obtain ⟨r, -, hr, -, -⟩ := busyOutstanding_iff.1 hb.1
      exact nomatch ht.curCmd.symm.trans hr
    rw [onDataInterrupt_noPhase ht.curData, onDataNoPhase_spurious hnotBusy (.inl ht.curCmd)]
    exact ht.congr (sameEngine_logEvent _ t)
  have hack : ∀ (t : State) (bits : Word), Idle t → Idle (acknowledged bits t) := fun t bits ht =>
    ht.congr (sameEngine_acknowledged bits t)
  have hread := h.congr (sameEngine_statusRead s)
  cases hw : spuriousWord s.win.intStatus with
  | true =>
    rw [dispatch_spurious h.ready hw]
    exact hread
  | false =>
    rw [dispatch_eq h.ready hw, dispatchWord]
    have hfront : (dispatchFront s.win.intStatus (statusRead s)).Safe Idle := by
      refine Res.Safe.bind (P := Idle) (acknowledge_safe hread.ready hread ?_) fun t ht =>
        acknowledge_safe ht.ready ht (hcmd _ _ (hack t _ ht))
      exact (hack _ _ hread).congr (sameEngine_scheduleCard _)
    refine hfront.bind fun m hm => ?_
    refine Res.Safe.bind (P := Idle) (acknowledge_safe hm.ready hm (hdata _ _ (hack m _ hm))) fun t ht =>
      acknowledge_safe ht.ready ht ?_
    obtain ⟨u, hu, hsame⟩ := logRemaining_eq (restPart t.params s.win.intStatus)
      (acknowledged (restPart t.params s.win.intStatus) t)
    rw [hu]
    exact (hack t _ ht).congr hsame

/-! ### SUBMIT (R230) -/

/-- What SUBMIT leaves: the Request running, its first command outstanding or its completion scheduled. -/
structure Submitted (t : State) : Prop where
  running : ∃ q, Running q t
  started : t.finishPend = true ∨ t.curCmd.isSome = true ∧ t.dataEarly = false

theorem withRoles_withRoles {r : Request} (hr : r.cmd ≠ none) : WithRoles (Request.withRoles r) := by
  refine ⟨by simpa [Request.withRoles, Request.mapCommand, Option.isSome_iff_ne_none] using hr, fun role c hc => ?_⟩
  cases role with
  | primary =>
    obtain ⟨x, -, rfl⟩ := Option.map_eq_some_iff.1 ((command_withRoles_primary r).symm.trans hc)
    rfl
  | sbc =>
    have hsbc : (r.sbc.map fun x => { x with role := .sbc }) = some c := hc
    obtain ⟨x, -, rfl⟩ := Option.map_eq_some_iff.1 hsbc
    rfl
  | stop =>
    cases hd : r.data with
    | none => simp [Request.withRoles, Request.mapCommand, Request.command, hd] at hc
    | some d =>
      have hstop : (d.stop.map fun x => { x with role := .stop }) = some c := by
        simpa [Request.withRoles, Request.mapCommand, Request.command, hd] using hc
      obtain ⟨x, -, rfl⟩ := Option.map_eq_some_iff.1 hstop
      rfl

theorem Idle.submit_safe {s : State} (h : Idle s) {r : Request} (hr : r.cmd ≠ none) :
    (startRequest r s).Safe Submitted := by
  have hroles := withRoles_withRoles hr
  have hactive : Active (Request.withRoles r) (accepted r s) :=
    ⟨h.ready, ⟨_, rfl, sameIssuer_refl _⟩, hroles, fun hcur => (nomatch h.curData.symm.trans hcur),
      fun he => (nomatch h.dataEarly.symm.trans he), h.accOff⟩
  have hlaunched : ∀ {role : Role} {t : State}, Launched (Request.withRoles r) role (accepted r s) t → Submitted t :=
    fun {role t} ht => by
      have hearly : t.dataEarly = false := by
        by_cases hrole : role = .primary
        · exact ht.primary hrole
        · exact (ht.other hrole).2.trans h.dataEarly
      exact ⟨⟨_, ht.running⟩, .inr ⟨by rw [ht.curCmd]; rfl, hearly⟩⟩
  by_cases hcard : presentShown s &&& bitMask s.params.presentCard = 0
  · rw [startRequest_noCard h.ready hcard]
    exact ⟨⟨_, hactive.failed (fun x hx => (nomatch h.curCmd.symm.trans hx))
      (fun he => (nomatch h.dataEarly.symm.trans he)) .primary .noMedium⟩, .inl rfl⟩
  · rw [startRequest_card h.ready hcard]
    cases hsbc : r.sbc with
    | some c =>
      obtain ⟨c', hc'⟩ := Option.isSome_iff_exists.1 ((withRoles_sbc_isSome r).trans (by rw [hsbc]; rfl))
      exact (issue_safe hactive (r := .sbc) hc').mono fun t ht => hlaunched ht
    | none =>
      obtain ⟨c', hc'⟩ := Option.isSome_iff_exists.1 hroles.1
      exact (issue_safe hactive (r := .primary) hc').mono fun t ht => hlaunched ht

/-! ### Every whole step -/

theorem sameEngine_envRaise (w : Word) (s : State) : SameEngine s (envRaise w s) :=
  ⟨rfl, rfl, rfl, rfl, rfl, rfl, rfl, rfl, rfl⟩

theorem Detached.engineInv {s : State} (h : Detached s) : EngineInv s := .inl h

theorem Idle.engineInv {s : State} (h : Idle s) : EngineInv s := .inr (.inl h)

theorem Running.engineInv {q : Request} {s : State} (h : Running q s) : EngineInv s := .inr (.inr ⟨q, h⟩)

/-- While attached the block is idle or runs a Request. -/
theorem EngineInv.attached {s : State} (h : EngineInv s) (ha : s.attached = true) : Idle s ∨ ∃ q, Running q s :=
  h.resolve_left fun hd => (nomatch hd.attached.symm.trans ha)

theorem EngineInv.congr {s t : State} (h : EngineInv s) (ha : s.attached = true) (ht : SameEngine s t) :
    EngineInv t := by
  obtain h | ⟨q, h⟩ := h.attached ha
  · exact (h.congr ht).engineInv
  · exact (h.congr ht).engineInv

section
variable {s : State} (h : EngineInv s)
include h

/-- A step that leaves the engine as it was, and a detached block detached. -/
theorem EngineInv.keep {t : State} (ht : SameEngine s t) (hd : Detached s → Detached t) : EngineInv t := by
  obtain h | h | ⟨q, h⟩ := h
  · exact (hd h).engineInv
  · exact (h.congr ht).engineInv
  · exact (h.congr ht).engineInv

theorem EngineInv.setPower_safe (ha : s.attached = true) (hf : s.fault = none) (hp : paramsOk s.params = true)
    (mode : PowerMode) : (setPowerMode mode s).Safe EngineInv := by
  rw [setPowerMode_ok (ready_iff.2 ⟨hf, ha, hp⟩)]
  exact h.congr ha ⟨rfl, rfl, rfl, rfl, rfl, rfl, rfl, rfl, rfl⟩

theorem EngineInv.dispatch_safe (ha : s.attached = true) : (dispatch s).Safe EngineInv := by
  obtain h | ⟨q, h⟩ := h.attached ha
  · exact h.dispatch_safe.mono fun _ ht => ht.engineInv
  · exact (Machine.dispatch_safe h).mono fun _ ht => ht.1.engineInv

theorem EngineInv.submit_safe (r : Request) : (submitRequest r s).Safe Submitted := by
  unfold submitRequest
  split
  · exact raise_safe (by decide) s
  · split
    · exact raise_safe (by decide) s
    · split
      · exact raise_safe (by decide) s
      · rename_i ha hreq hcmd
        obtain h | ⟨q, h⟩ := h.attached (by simpa using ha)
        · exact h.submit_safe (by simpa using hcmd)
        · obtain ⟨q', hq', -⟩ := h.req
          exact absurd (by simp [hq']) hreq

/-- From the invariant every enabled whole step's rule ends in it, or raises a fault other than WindowAccess. -/
theorem EngineInv.rule_safe {i : Instr} (hi : wholeStep i = true) (he : enabled i s = true)
    (hf : s.fault = none) (hp : paramsOk s.params = true) : (rule i s).Safe EngineInv := by
  cases hw : raisedWord s.params i with
  | some w =>
    have ha : s.attached = true := (enabled_raised hw).symm.trans he
    rw [rule_raised hw]
    exact EngineInv.dispatch_safe (h.congr ha (sameEngine_envRaise w s)) ha
  | none =>
    cases i with
    | attach =>
      have ha : s.attached = false := by simpa [enabled] using he
      show (attachWindow s).Safe EngineInv
      rw [attachWindow, writeIntEnable_ok (by exact hp) rfl]
      exact Idle.engineInv ⟨ready_iff.2 ⟨hf, rfl, hp⟩, rfl, rfl, rfl, rfl, rfl, rfl, rfl⟩
    | detach =>
      obtain ⟨ha, hq, hfin, hcard, htimer, hqueue⟩ := enabled_detach.1 he
      show (detachWindow s).Safe EngineInv
      rw [detachWindow, writeIntEnable_ok hp ha]
      obtain h | ⟨q, h⟩ := h.attached ha
      · exact Detached.engineInv
          ⟨hf, rfl, hq, h.curCmd, h.curData, h.dataEarly, h.accOff, htimer, hfin, hcard, hqueue⟩
      · obtain ⟨q', hq', -⟩ := h.req
        exact nomatch hq.symm.trans hq'
    | submit r =>
      refine (h.submit_safe r).mono fun t ht => ?_
      obtain ⟨q, hq⟩ := ht.running
      exact hq.engineInv
    | irq => exact h.dispatch_safe he
    | spuriousZero => exact h.dispatch_safe (by simp [enabled] at he; exact he.1)
    | wdog =>
      show (watchdogFire s).Safe EngineInv
      have htimer : s.timer.isSome = true := he
      obtain h | h | ⟨q, h⟩ := h
      · simp [h.timer] at htimer
      · simp [h.timer] at htimer
      · exact (watchdogFire_safe h).mono fun t ht => ht.1.engineInv
    | workFinish =>
      show (requestFinish s).Safe EngineInv
      have hfin : s.finishPend = true := he
      obtain h | h | ⟨q, h⟩ := h
      · exact nomatch h.finishPend.symm.trans hfin
      · exact nomatch h.finishPend.symm.trans hfin
      · exact (requestFinish_safe h).mono fun t ht => ht.engineInv
    | workCard =>
      have hcard : s.cardPend = true := he
      show (done _).Safe EngineInv
      exact h.keep ⟨rfl, rfl, rfl, rfl, rfl, rfl, rfl, rfl, rfl⟩ fun hd => (nomatch hd.cardPend.symm.trans hcard)
    | notify =>
      show (deliver s).Safe EngineInv
      unfold deliver
      split
      · exact h
      · rename_i q rest hqueue
        exact h.keep ⟨rfl, rfl, rfl, rfl, rfl, rfl, rfl, rfl, rfl⟩ fun hd => (nomatch hd.notifyQ.symm.trans hqueue)
    | setPower mode => exact h.setPower_safe he hf hp mode
    | powerOff => exact h.setPower_safe he hf hp .off
    | powerUp => exact h.setPower_safe he hf hp .up
    | powerOn => exact h.setPower_safe he hf hp .on
    | envRaise m => exact h.keep (sameEngine_envRaise m s) fun hd => { hd with }
    | envCard b => exact h.keep ⟨rfl, rfl, rfl, rfl, rfl, rfl, rfl, rfl, rfl⟩ fun hd => { hd with }
    | stCmdComplete | stXferComplete | stSpaceAvail | stDataAvail | stCardInsert | stCardRemove | stCardInt
    | stCmdTimeout | stCmdCrc | stCmdEndBit | stCmdIndex | stDataTimeout | stDataCrc | stDataEndBit
    | stUnclassified | spuriousAllOnes => cases hw
    | _ => cases hi

end

end Sys2Proof.Machine

/-! The invariant of whole steps (spec/20_memory.md section 1, spec/60_exceptions.md R253, spec/70_reset_and_hazards.md
section 3): every whole step is safe and keeps it. The proofs of WholeStepsSafe and StepKeepsInv. -/

namespace Sys2Proof.Machine

/-! ### Whole steps are safe and keep the invariant -/

theorem EngineInv.fault {s : State} (h : EngineInv s) : s.fault = none := by
  obtain h | h | ⟨q, h⟩ := h
  · exact h.fault
  · exact (ready_iff.1 h.ready).1
  · exact (ready_iff.1 h.ready).1

theorem Res.Safe.safeAnswer {x : Res Unit} {P : State → Prop} (h : x.Safe P)
    (hP : ∀ t, P t → t.fault ≠ some .windowAccess) : safeAnswer x.outcome = true := by
  cases x with
  | ok a t => exact bne_iff_ne.2 (hP t h)
  | raised t => exact bne_iff_ne.2 h
  | stuck r => exact h.elim

/-- A safe operation answers a next state, in P where no fault was raised. -/
theorem Res.Safe.outcome_next {x : Res Unit} {P : State → Prop} (h : x.Safe P) {s : State} {W : List Field}
    (hm : x.Moves W s) : ∃ t, x.outcome = .next t ∧ (t.fault = none → P t) := by
  cases x with
  | ok a t => exact ⟨t, rfl, fun _ => h⟩
  | raised t =>
    obtain ⟨-, r, hr, -⟩ := hm
    exact ⟨t, rfl, fun hf => (nomatch hf.symm.trans hr)⟩
  | stuck r => exact h.elim

theorem paramsOk_of_invOk {s : State} (h : invOk s = true) : paramsOk s.params = true := (invOk_iff.1 h).1

/-- Settles O8: an enabled whole step's rule is safe, and any other answer is a halt or not enabled. -/
theorem wholeStepsSafe : Obligations.WholeStepsSafe := by
  unfold Obligations.WholeStepsSafe
  intro i s hinv hi
  cases hf : s.fault with
  | some r =>
    rw [exec_halted hf]
    rfl
  | none =>
    have hengine := engineInv_of_invOk hinv hf
    cases he : enabled i s with
    | false =>
      obtain ⟨m, hm⟩ := exec_notEnabled hf he
      rw [hm]
      rfl
    | true =>
      rw [exec_enabled hf he]
      exact (hengine.rule_safe hi he hf (paramsOk_of_invOk hinv)).safeAnswer fun t ht h =>
        nomatch ht.fault.symm.trans h

/-- What a whole step's next state is, where no fault was raised. -/
theorem engineInv_of_exec_next {i : Instr} {s t : State} (hinv : invOk s = true) (hi : wholeStep i = true)
    (h : exec i s = .next t) (ht : t.fault = none) : EngineInv t := by
  obtain ⟨hf, he, hrule⟩ := exec_next h
  have hsafe := (engineInv_of_invOk hinv hf).rule_safe hi he hf (paramsOk_of_invOk hinv)
  obtain ⟨u, hu, hP⟩ := hsafe.outcome_next (rule_moves he)
  cases hu.symm.trans hrule
  exact hP ht

theorem exec_keepsInv {i : Instr} {s t : State} (hinv : invOk s = true) (hi : wholeStep i = true)
    (h : exec i s = .next t) : invOk t = true := by
  obtain ⟨hp, hmem, -⟩ := invOk_iff.1 hinv
  obtain ⟨hmoved, -⟩ := exec_moved h
  refine invOk_iff.2 ⟨by rw [hmoved.params]; exact hp, hmoved.memory hmem, ?_⟩
  cases ht : t.fault with
  | some r => exact .inl rfl
  | none => exact .inr (engineOk_of_engineInv (engineInv_of_exec_next hinv hi h ht))

theorem wholeStep_of_topLevel {i : Instr} (h : i.topLevel = true) : wholeStep i = true := by
  simp [wholeStep, h]

/-- No whole step writes the agenda. -/
theorem agenda_notMem_mayWrite {i : Instr} (hi : wholeStep i = true) (p : Params) : .agenda ∉ mayWrite p i := by
  cases hw : raisedWord p i with
  | some w =>
    by_cases hones : i = .spuriousAllOnes
    · subst hones
      exact of_decide_eq_true rfl
    · rw [mayWrite_raised hw hones]
      decide
  | none =>
    cases i with
    | stCmdComplete | stXferComplete | stSpaceAvail | stDataAvail | stCardInsert | stCardRemove | stCardInt
    | stCmdTimeout | stCmdCrc | stCmdEndBit | stCmdIndex | stDataTimeout | stDataCrc | stDataEndBit
    | stUnclassified | spuriousAllOnes => cases hw
    | attach | detach | submit | irq | wdog | workFinish | workCard | notify | setPower | envRaise | envCard
    | spuriousZero | powerOff | powerUp | powerOn => exact of_decide_eq_true rfl
    | _ => cases hi

theorem exec_agenda {i : Instr} {s t : State} (hp : paramsOk s.params = true) (hi : wholeStep i = true)
    (h : exec i s = .next t) : t.agenda = s.agenda :=
  frame i s t hp h .agenda (agenda_notMem_mayWrite hi s.params)

/-- Settles O9: a whole step keeps the invariant; the machine's step runs one and leaves the agenda's rest. -/
theorem stepKeepsInv : Obligations.StepKeepsInv := by
  unfold Obligations.StepKeepsInv
  refine ⟨fun i s t hinv hi h => exec_keepsInv hinv hi h, fun s t hinv hagenda h => ?_⟩
  have hp := paramsOk_of_invOk hinv
  obtain ⟨e, rest, i, ha, hd, hexec⟩ | ⟨ha, rfl | ⟨i, hi, hexec⟩⟩ := step_next h
  · simp only [wholeAgenda, ha, List.all_cons, hd, Bool.and_eq_true] at hagenda
    obtain ⟨hi, hrest⟩ := hagenda
    have hkept := exec_agenda (s := { s with agenda := rest }) hp hi hexec
    refine ⟨exec_keepsInv (s := { s with agenda := rest }) hinv hi hexec, ?_⟩
    simpa only [wholeAgenda, hkept] using hrest
  · exact ⟨hinv, hagenda⟩
  · have hwhole := wholeStep_of_topLevel hi
    have hkept := exec_agenda (s := { s with turns := s.turns + 1 }) hp hwhole hexec
    refine ⟨exec_keepsInv (s := { s with turns := s.turns + 1 }) hinv hwhole hexec, ?_⟩
    simpa only [wholeAgenda, hkept] using hagenda

end Sys2Proof.Machine

/-! The request phase (spec/45_completion_watchdog.md R226, R227, R229, spec/10_state.md R21): the phase of a
running Request, the moves of each handler, and the proof of PhaseMoves. -/

namespace Sys2Proof.Machine

/-! ### The phase of the three cases (R21, R226) -/

theorem phase_noRequest {s : State} (h : s.req = none) : phase s = .idle := by simp [phase, h]

theorem phase_completing {s : State} (h : s.req ≠ none) (hf : s.finishPend = true) : phase s = .completing := by
  simp [phase, h, hf]

/-- The phase of a state with a Request whose completion is not scheduled, from its slot and Data phase. -/
def openPhase (cmd data early : Bool) : Phase :=
  if cmd && !(data && early) then .commandIssued
  else if !cmd && data then .dataActive
  else if cmd && data && early then .dataComplete
  else .responseReceived

theorem phase_open {s : State} (h : s.req ≠ none) (hf : s.finishPend = false) :
    phase s = openPhase s.curCmd.isSome s.curData s.dataEarly := by
  cases hcmd : s.curCmd <;> simp [phase, openPhase, h, hf, hcmd]

section
variable {q : Request} {s : State} (h : Running q s)
include h

theorem Running.req_ne_none : s.req ≠ none := by
  obtain ⟨q', hq, -⟩ := h.req
  simp [hq]

/-- Between steps the phase of a running Request is one of four. -/
theorem Running.phase_cases : s.finishPend = true ∧ phase s = .completing ∨ s.finishPend = false ∧
    (phase s = .commandIssued ∧ s.curCmd.isSome = true ∧ s.dataEarly = false ∨
      phase s = .dataActive ∧ s.curCmd = none ∧ s.curData = true ∧ s.dataEarly = false ∨
      phase s = .dataComplete ∧ s.curCmd.isSome = true ∧ s.curData = true ∧ s.dataEarly = true) := by
  cases hf : s.finishPend with
  | true => exact .inl ⟨rfl, phase_completing h.req_ne_none hf⟩
  | false =>
    have hopen := phase_open h.req_ne_none hf
    have hearly := h.early
    have hearlySlot := h.earlySlot
    have hprogress := h.progress
    refine .inr ⟨rfl, ?_⟩
    cases hcmd : s.curCmd <;> cases hdata : s.curData <;> cases he : s.dataEarly <;>
      simp_all [openPhase]

end

section
variable {q : Request} {s : State} (h : Running q s) (hf : s.finishPend = false)
include h hf

theorem Running.phase_commandIssued (hcmd : s.curCmd.isSome = true) (he : s.dataEarly = false) :
    phase s = .commandIssued := by
  rw [phase_open h.req_ne_none hf, hcmd, he]
  cases s.curData <;> rfl

theorem Running.phase_dataActive (hcmd : s.curCmd = none) (hdata : s.curData = true) (he : s.dataEarly = false) :
    phase s = .dataActive := by
  rw [phase_open h.req_ne_none hf, hcmd, hdata, he]
  rfl

theorem Running.phase_dataComplete (hcmd : s.curCmd.isSome = true) (he : s.dataEarly = true) :
    phase s = .dataComplete := by
  rw [phase_open h.req_ne_none hf, hcmd, h.early he, he]
  rfl

theorem Running.phase_outstanding (hcmd : s.curCmd.isSome = true) :
    phase s = .commandIssued ∨ phase s = .dataComplete := by
  cases he : s.dataEarly with
  | false => exact .inl (h.phase_commandIssued hf hcmd he)
  | true => exact .inr (h.phase_dataComplete hf hcmd he)

end

/-- Where the engine stays, so does the phase. -/
theorem phase_stays {q : Request} {s t : State} (hs : Running q s) (ht : Running q t) (h : Stays s t)
    (hf : t.finishPend = s.finishPend) : phase t = phase s := by
  obtain ⟨hcmd, hdata, hearly⟩ := h
  cases hfin : s.finishPend with
  | true => rw [phase_completing ht.req_ne_none (hf.trans hfin), phase_completing hs.req_ne_none hfin]
  | false => rw [phase_open ht.req_ne_none (hf.trans hfin), phase_open hs.req_ne_none hfin, hcmd, hdata, hearly]

/-! ### The phase moves of one handler (R226) -/

/-- The phase moves of a command interrupt. -/
def cmdPhase : Phase → Phase → Bool
  | .commandIssued, .commandIssued | .commandIssued, .dataActive => true
  | .dataActive, .dataActive => true
  | .dataComplete, .dataComplete | .dataComplete, .commandIssued => true
  | _, .completing => true
  | _, _ => false

/-- The phase moves of a data interrupt. -/
def dataPhase : Phase → Phase → Bool
  | .commandIssued, .commandIssued | .commandIssued, .dataComplete => true
  | .dataActive, .dataActive | .dataActive, .commandIssued => true
  | .dataComplete, .dataComplete | .dataComplete, .commandIssued => true
  | _, .completing => true
  | _, _ => false

/-- The phases of a running Request between steps. -/
def heldPhase (a : Phase) : Prop :=
  a = .completing ∨ a = .commandIssued ∨ a = .dataActive ∨ a = .dataComplete

theorem Running.heldPhase {q : Request} {s : State} (h : Running q s) : heldPhase (phase s) := by
  obtain h | ⟨-, h | h | h⟩ := h.phase_cases
  · exact .inl h.2
  · exact .inr (.inl h.1)
  · exact .inr (.inr (.inl h.1))
  · exact .inr (.inr (.inr h.1))

theorem cmdPhase_refl {a : Phase} (h : heldPhase a) : cmdPhase a a = true := by
  obtain rfl | rfl | rfl | rfl := h <;> rfl

theorem dataPhase_refl {a : Phase} (h : heldPhase a) : dataPhase a a = true := by
  obtain rfl | rfl | rfl | rfl := h <;> rfl

theorem cmdPhase_completing (a : Phase) : cmdPhase a .completing = true := by cases a <;> rfl

theorem dataPhase_completing (a : Phase) : dataPhase a .completing = true := by cases a <;> rfl

/-- A command interrupt and then a data interrupt move as one dispatch may. -/
theorem phaseMove_of_handlers {a b c : Phase} (ha : heldPhase a) (hab : cmdPhase a b = true)
    (hbc : dataPhase b c = true) : phaseMove a c = true := by
  obtain rfl | rfl | rfl | rfl := ha <;> cases b <;> cases hab <;> cases c <;> cases hbc <;> rfl

section
variable {q : Request} {s t : State} (hs : Running q s) (ht : Running q t)
include hs ht

theorem CmdMove.phase (h : CmdMove s t) : cmdPhase (phase s) (phase t) = true := by
  cases hfin : t.finishPend with
  | true =>
    rw [phase_completing ht.req_ne_none hfin]
    exact cmdPhase_completing _
  | false =>
    obtain ⟨hf, hmove⟩ := h.resolve_left (by simp [hfin])
    have hfin' : s.finishPend = false := hf.symm.trans hfin
    have hopened : ∀ {r : Role}, s.curCmd.isSome = true → t.curCmd = some r → t.dataEarly = false →
        cmdPhase (Machine.phase s) (Machine.phase t) = true := fun {r} hcmd hr he => by
      rw [ht.phase_commandIssued hfin (by rw [hr]; rfl) he]
      obtain h | h := hs.phase_outstanding hfin' hcmd <;> rw [h] <;> rfl
    obtain hstays | ⟨hsbc, hprimary, he⟩ | ⟨hcmd, -, hstop, -, he⟩ | ⟨hcmd, hdata, he, hcmd', hdata', he'⟩ := hmove
    · rw [phase_stays hs ht hstays hf]
      exact cmdPhase_refl hs.heldPhase
    · exact hopened (by rw [hsbc]; rfl) hprimary he
    · exact hopened hcmd hstop he
    · rw [hs.phase_commandIssued hfin' hcmd he, ht.phase_dataActive hfin hcmd' hdata' he']
      rfl

theorem DataMove.phase (h : DataMove s t) : dataPhase (phase s) (phase t) = true := by
  cases hfin : t.finishPend with
  | true =>
    rw [phase_completing ht.req_ne_none hfin]
    exact dataPhase_completing _
  | false =>
    obtain ⟨hf, hmove⟩ := h.resolve_left (by simp [hfin])
    have hfin' : s.finishPend = false := hf.symm.trans hfin
    have hissued : ∀ {r : Role}, t.curCmd = some r → t.dataEarly = false →
        dataPhase (Machine.phase s) (Machine.phase t) = true := fun {r} hr he => by
      rw [ht.phase_commandIssued hfin (by rw [hr]; rfl) he]
      obtain h | ⟨-, h | h | h⟩ := hs.phase_cases
      · exact nomatch hfin'.symm.trans h.1
      · rw [h.1]; rfl
      · rw [h.1]; rfl
      · rw [h.1]; rfl
    obtain hstays | ⟨-, hprimary, he⟩ | ⟨-, hstop, -, he⟩ | ⟨hcmd, -, hcmd', -, he⟩ := hmove
    · rw [phase_stays hs ht hstays hf]
      exact dataPhase_refl hs.heldPhase
    · exact hissued hprimary he
    · exact hissued hstop he
    · rw [ht.phase_dataComplete hfin (by rw [hcmd']; exact hcmd) he]
      obtain h | h := hs.phase_outstanding hfin' hcmd <;> rw [h] <;> rfl

end

/-! ### The moves of a top-level step while a Request runs -/

/-- A next state without a fault is one the step's safe rule allows. -/
theorem Res.Safe.exec_next {i : Instr} {s t : State} {P : State → Prop} (hsafe : (rule i s).Safe P)
    (h : exec i s = .next t) (ht : t.fault = none) : P t := by
  obtain ⟨-, he, hrule⟩ := Machine.exec_next h
  obtain ⟨u, hu, hP⟩ := hsafe.outcome_next (rule_moves he)
  cases hu.symm.trans hrule
  exact hP ht

/-- The engine's moves of one step but the request-finish work: a dispatch's, or the watchdog's. -/
def RunMove (q : Request) (s t : State) : Prop :=
  (∃ m, Running q m ∧ CmdMove s m ∧ DataMove m t) ∨ Moves StopIssued s t

theorem runMove_of_sameEngine {q : Request} {s t : State} (h : Running q s) (ht : SameEngine s t) : RunMove q s t :=
  .inl ⟨s, h, cmdMove_of_stays (stays_refl s) rfl, dataMove_of_stays ht.stays ht.finishPend⟩

/-- A running Request goes on running through every top-level step but the request-finish work. -/
theorem Running.rule_safe {q : Request} {s : State} (h : Running q s) {i : Instr} (hi : i.topLevel = true)
    (hne : i ≠ .workFinish) (he : enabled i s = true) :
    (rule i s).Safe (fun t => Running q t ∧ RunMove q s t) := by
  obtain ⟨hf, ha, hp⟩ := ready_iff.1 h.ready
  have hkeep : ∀ {t}, SameEngine s t → Running q t ∧ RunMove q s t := fun ht =>
    ⟨h.congr ht, runMove_of_sameEngine h ht⟩
  cases i with
  | attach => simp [enabled, ha] at he
  | detach => exact absurd (enabled_detach.1 he).2.1 h.req_ne_none
  | submit r =>
    show (submitRequest r s).Safe _
    rw [submitRequest, if_neg (by simp [ha]), if_pos (Option.isSome_iff_ne_none.2 h.req_ne_none)]
    exact raise_safe (by decide) s
  | irq => exact (dispatch_safe h).mono fun t ht => ⟨ht.1, .inl ht.2⟩
  | wdog => exact (watchdogFire_safe h).mono fun t ht => ⟨ht.1, .inr ht.2⟩
  | workFinish => exact absurd rfl hne
  | workCard => exact hkeep ⟨rfl, rfl, rfl, rfl, rfl, rfl, rfl, rfl, rfl⟩
  | notify =>
    show (deliver s).Safe _
    unfold deliver
    split
    · exact hkeep ⟨rfl, rfl, rfl, rfl, rfl, rfl, rfl, rfl, rfl⟩
    · exact hkeep ⟨rfl, rfl, rfl, rfl, rfl, rfl, rfl, rfl, rfl⟩
  | setPower mode =>
    show (setPowerMode mode s).Safe _
    rw [setPowerMode_ok h.ready]
    exact hkeep ⟨rfl, rfl, rfl, rfl, rfl, rfl, rfl, rfl, rfl⟩
  | envRaise m => exact hkeep (sameEngine_envRaise m s)
  | envCard b => exact hkeep ⟨rfl, rfl, rfl, rfl, rfl, rfl, rfl, rfl, rfl⟩
  | _ => cases hi

/-- Where no Request is active, only SUBMIT makes one active. -/
theorem noRequest_next {i : Instr} {s t : State} (hi : ∀ r, i ≠ .submit r) (hs : s.req = none)
    (h : exec i s = .next t) : t.req = none := by
  rw [Option.eq_none_iff_forall_ne_some]
  intro q hq
  obtain ⟨q', hq', -⟩ := exec_keepsIssuer hi h q hq
  exact nomatch hs.symm.trans hq'

theorem EngineInv.noRequest_or_running {s : State} (h : EngineInv s) : s.req = none ∨ ∃ q, Running q s := by
  obtain h | h | h := h
  · exact .inl h.req
  · exact .inl h.req
  · exact .inr h

/-! ### PhaseMoves -/

theorem phaseMove_completing {a : Phase} (h : heldPhase a) : phaseMove a .completing = true := by
  obtain rfl | rfl | rfl | rfl := h <;> rfl

/-- A running Request that goes on running does not leave Completing. -/
theorem completing_of_phaseMove {b : Phase} (h : phaseMove .completing b = true) (hb : heldPhase b) :
    b = .completing := by
  obtain rfl | rfl | rfl | rfl := hb
  · rfl
  · cases h
  · cases h
  · cases h

section
variable {q : Request} {s t : State} (hs : Running q s) (ht : Running q t)
include hs ht

/-- R226: the moves of one step are along the table. -/
theorem RunMove.phase (h : RunMove q s t) : phaseMove (phase s) (phase t) = true := by
  obtain ⟨m, hm, hcmd, hdata⟩ | hfin | ⟨hfin, -, hstop, -, hearly⟩ := h
  · exact phaseMove_of_handlers hs.heldPhase (hcmd.phase hs hm) (hdata.phase hm ht)
  · rw [phase_completing ht.req_ne_none hfin]
    exact phaseMove_completing hs.heldPhase
  · cases hf : t.finishPend with
    | true =>
      rw [phase_completing ht.req_ne_none hf]
      exact phaseMove_completing hs.heldPhase
    | false =>
      rw [ht.phase_commandIssued hf (by rw [hstop]; rfl) hearly]
      obtain h | ⟨-, h | h | h⟩ := hs.phase_cases
      · exact nomatch hf.symm.trans (hfin.trans h.1)
      · rw [h.1]; rfl
      · rw [h.1]; rfl
      · rw [h.1]; rfl

end

theorem heldPhase_ne_idle {a : Phase} (h : heldPhase a) : a ≠ .idle := by
  obtain rfl | rfl | rfl | rfl := h <;> decide

/-- SUBMIT leaves Idle for CommandIssued or Completing. -/
theorem Submitted.phase {t : State} (h : Submitted t) : phaseMove .idle (phase t) = true := by
  obtain ⟨⟨q, hrun⟩, hstart⟩ := h
  cases hf : t.finishPend with
  | true =>
    rw [phase_completing hrun.req_ne_none hf]
    rfl
  | false =>
    obtain ⟨hcmd, hearly⟩ := hstart.resolve_left (by simp [hf])
    rw [hrun.phase_commandIssued hf hcmd hearly]
    rfl

/-- Settles O52: a running Request moves by the handlers or ends, an idle block submits or stays idle. -/
theorem phaseMoves : Obligations.PhaseMoves := by
  unfold Obligations.PhaseMoves
  intro i s t hinv hi h ht
  obtain ⟨hf, he, -⟩ := exec_next h
  have hengine := engineInv_of_invOk hinv hf
  obtain hs | ⟨q, hs⟩ := hengine.noRequest_or_running
  · rw [phase_noRequest hs]
    by_cases hsubmit : ∃ r, i = .submit r
    · obtain ⟨r, rfl⟩ := hsubmit
      exact ⟨((hengine.submit_safe r).exec_next (i := .submit r) h ht).phase, nofun, fun _ _ => ⟨r, rfl⟩⟩
    · have hnone := phase_noRequest (noRequest_next (not_exists.1 hsubmit) hs h)
      rw [hnone]
      exact ⟨rfl, nofun, fun _ hne => absurd rfl hne⟩
  · by_cases hwork : i = .workFinish
    · subst hwork
      have hidle : Idle t := (requestFinish_safe hs).exec_next (i := .workFinish) h ht
      rw [phase_completing hs.req_ne_none he, phase_noRequest hidle.req]
      exact ⟨rfl, fun _ _ => rfl, nofun⟩
    · obtain ⟨hrun, hmove⟩ := (hs.rule_safe hi hwork he).exec_next h ht
      have hphase := hmove.phase hs hrun
      refine ⟨hphase, fun hc hne => absurd ?_ hne, fun hidle => absurd hidle (heldPhase_ne_idle hs.heldPhase)⟩
      rw [hc] at hphase
      exact completing_of_phaseMove hphase hrun.heldPhase

end Sys2Proof.Machine

/-! The life of a Request (spec/45_completion_watchdog.md R205 to R228, spec/46_issuer_platform.md R232,
spec/70_reset_and_hazards.md R299): only the request-finish work ends one, only NOTIFY takes one off the queue, and
an active one has a bounded way out. The proofs of OneCompletion and EveryRequestEnds. -/

namespace Sys2Proof.Machine

/-! ### OneCompletion -/

/-- What the request-finish work leaves of a Request: it is queued as it will be notified, and none is active. -/
structure Completed (s : State) (q : Request) (t : State) : Prop where
  fault : t.fault = none
  req : t.req = none
  notifyQ : t.notifyQ = s.notifyQ ++ [notified s q]
  trace : ∃ es, t.trace = s.trace ++ es ∧ ∀ e ∈ es, isNotification e = false

/-- R205, R228: with a Request the request-finish work completes it. -/
theorem requestFinish_completes {s : State} {q : Request} (hs : ready s = true) (hq : s.req = some q) :
    ∃ t, requestFinish s = done t ∧ Completed s q t := by
  have hf := (ready_iff.1 hs).1
  cases habort : needsAbort q with
  | false => exact ⟨_, requestFinish_clean hq habort, hf, rfl, rfl, [.cancel], rfl, by simp [isNotification]⟩
  | true =>
    obtain ⟨-, u, -, -, -, hready, hboth⟩ := abortBoth_completes (s := cancelTimer { s with finishPend := false }) hs
    have hmoves : (done u).Moves abortWrites (cancelTimer { s with finishPend := false }) :=
      hboth ▸ abortBoth_moves _
    have hframe := hmoves.1.frame (ready_iff.1 hs).2.2
    obtain ⟨es, hes, -, hnotify⟩ := hmoves.1.trace
    have hqueue : u.notifyQ = s.notifyQ := hframe .notifyQ (by decide)
    have hduty : u.dutyBroken = s.dutyBroken := hframe .dutyBroken (by decide)
    have hbreaches : u.breaches = s.breaches := hframe .breaches (by decide)
    refine ⟨detachRequest q u, ?_, (ready_iff.1 hready).1, rfl, ?_, .cancel :: es, ?_, fun e he => ?_⟩
    · rw [requestFinish_aborts hq habort, hboth, Res.bind_done]
    · simp [detachRequest, notified, hqueue, hduty, hbreaches]
    · rw [show (detachRequest q u).trace = u.trace from rfl, hes]
      simp [cancelTimer, record]
    · obtain rfl | he := List.mem_cons.1 he
      · rfl
      · exact Bool.eq_false_iff.2 fun hn => absurd (hnotify e he hn) (by decide)

theorem exec_workFinish_completes {s : State} {q : Request} (hs : ready s = true) (hq : s.req = some q)
    (hfin : s.finishPend = true) : ∃ t, exec .workFinish s = .next t ∧ Completed s q t := by
  obtain ⟨t, ht, hcompleted⟩ := requestFinish_completes hs hq
  refine ⟨t, ?_, hcompleted⟩
  rw [exec_workFinish (ready_iff.1 hs).1 hfin, ht, Res.outcome_done]

/-- R232: NOTIFY delivers the oldest Request queued. -/
theorem exec_notify_delivers {s : State} {q : Request} {rest : List Request} (hf : s.fault = none)
    (hq : s.notifyQ = q :: rest) :
    exec .notify s = .next (record (.notifyComplete q) { s with notifyQ := rest }) := by
  rw [exec_notify hf (by simp [hq])]
  simp [deliver, hq]

/-- The top-level steps that write the queue. -/
theorem notifyQ_notMem_mayWrite {i : Instr} (hi : i.topLevel = true) (ha : i ≠ .attach) (hw : i ≠ .workFinish)
    (hn : i ≠ .notify) (p : Params) : .notifyQ ∉ mayWrite p i := by
  cases i with
  | attach => exact absurd rfl ha
  | workFinish => exact absurd rfl hw
  | notify => exact absurd rfl hn
  | detach | submit | irq | wdog | workCard | setPower | envRaise | envCard => exact of_decide_eq_true rfl
  | _ => cases hi

/-- ATTACH leaves the queue empty, as it was while detached. -/
theorem exec_attach_next {s t : State} (h : exec .attach s = .next t) (hp : paramsOk s.params = true) :
    t = { resetEngine s with
      attached := true
      win := { s.win with intEnable := s.params.irqEnableMask }
      trace := s.trace ++ [.w32 s.params.offIntEnable s.params.irqEnableMask] } := by
  obtain ⟨-, -, hrule⟩ := exec_next h
  have hattach : rule .attach s = attachWindow s := rfl
  rw [hattach, attachWindow, writeIntEnable_ok (by exact hp) rfl] at hrule
  cases hrule
  rfl

/-- A step that leaves the queue: it notifies nothing, queues nothing and ends no Request. -/
structure QueueKept (s t : State) : Prop where
  notifyQ : t.notifyQ = s.notifyQ
  req : s.req.isSome = true → t.req.isSome = true
  trace : ∃ es, t.trace = s.trace ++ es ∧ ∀ e ∈ es, isNotification e = false

/-- R228: WORK_FINISH completes the active Request, NOTIFY delivers the oldest queued, the rest leave the queue. -/
theorem exec_queue {i : Instr} {s t : State} (hinv : invOk s = true) (hi : i.topLevel = true) (h : exec i s = .next t) :
    (i = .workFinish ∧ ∃ q, s.req = some q ∧ Completed s q t) ∨
    (i = .notify ∧ ∃ q rest, s.notifyQ = q :: rest ∧ t = record (.notifyComplete q) { s with notifyQ := rest }) ∨
    QueueKept s t := by
  obtain ⟨hf, he, -⟩ := exec_next h
  have hengine := engineInv_of_invOk hinv hf
  have hp := paramsOk_of_invOk hinv
  by_cases hw : i = .workFinish
  · subst hw
    obtain hs | hs | ⟨q, hs⟩ := hengine
    · exact nomatch hs.finishPend.symm.trans he
    · exact nomatch hs.finishPend.symm.trans he
    · obtain ⟨q', hq', -⟩ := hs.req
      obtain ⟨u, hu, hcompleted⟩ := exec_workFinish_completes hs.ready hq' he
      cases hu.symm.trans h
      exact .inl ⟨rfl, q', hq', hcompleted⟩
  by_cases hn : i = .notify
  · subst hn
    obtain ⟨q, rest, hq⟩ := List.exists_cons_of_ne_nil (l := s.notifyQ) (by simpa [enabled] using he)
    cases (exec_notify_delivers hf hq).symm.trans h
    exact .inr (.inl ⟨rfl, q, rest, hq, rfl⟩)
  refine .inr (.inr ?_)
  by_cases ha : i = .attach
  · subst ha
    have hdetached : Detached s := hengine.resolve_right fun hs => by
      have hattached : s.attached = true := by
        obtain hs | ⟨q, hs⟩ := hs
        · exact (ready_iff.1 hs.ready).2.1
        · exact (ready_iff.1 hs.ready).2.1
      simp [enabled, hattached] at he
    cases exec_attach_next h hp
    exact ⟨hdetached.notifyQ.symm, fun hreq => by simp [hdetached.req] at hreq, _, rfl, by simp [isNotification]⟩
  · have hqueue := notifyQ_notMem_mayWrite hi ha hw hn s.params
    obtain ⟨hmoved, -⟩ := exec_moved h
    obtain ⟨es, hes, -, hnotify⟩ := hmoved.trace
    exact ⟨hmoved.frame hp .notifyQ hqueue, hmoved.request hqueue, es, hes,
      fun e he => Bool.eq_false_iff.2 fun hn => hqueue (hnotify e he hn)⟩

/-- Settles O51: the three ways a step treats the queue. -/
theorem oneCompletion : Obligations.OneCompletion := by
  unfold Obligations.OneCompletion
  intro i s t hinv hi h
  obtain ⟨rfl, q, hq, hcompleted⟩ | ⟨rfl, q, rest, hq, rfl⟩ | hkept := exec_queue hinv hi h
  · exact .inl ⟨rfl, q, hq, hcompleted.req, hcompleted.notifyQ⟩
  · exact .inr (.inl ⟨rfl, rfl, q, hq⟩)
  · exact .inr (.inr ⟨hkept.notifyQ, hkept.req⟩)

/-! ### EveryRequestEnds -/

theorem commandFault_cases (c : Command) :
    commandFault c = none ∨ commandFault c = some .configOpcode ∨ commandFault c = some .configShape := by
  unfold commandFault
  split_ifs <;> simp

/-- R170: the issue of a stop command answers a next state, with no fault but an opcode's or a shape's. -/
theorem issueStop_ends {q : Request} {u : State} (h : Active q u) {c0 : Command}
    (hc : Request.command q .stop = some c0) : ∃ t, (issue .stop u).outcome = .next t ∧
      (t.fault = none ∨ t.fault = some .configOpcode ∨ t.fault = some .configShape) := by
  obtain ⟨c, hcmd, -, hrole⟩ := h.command hc
  have hnoData : issuedData u c = none := by simp [issuedData, hasData, hrole]
  obtain ⟨t, ht, hfault, -⟩ := exec_issue_ends h.ready hcmd
  rw [exec_issue (ready_iff.1 h.ready).1] at ht
  refine ⟨t, ht, ?_⟩
  rw [hfault, hnoData, Option.bind_none, Option.none_or]
  exact commandFault_cases c

/-- R171, R170: finish after an error answers a next state, with no fault but its stop command's. -/
theorem finishData_error_ends {q : Request} {s : State} (h : Active q s) {d : Data} (hd : dataOf s = some d) {e : Err}
    (he : e ≠ .ok) : ∃ t, (finishData e s).outcome = .next t ∧
      (t.fault = none ∨ t.fault = some .configOpcode ∨ t.fault = some .configShape) := by
  obtain ⟨q', hq, hsame⟩ := h.req
  have hqd : q'.data = some d := by simpa [dataOf, hq] using hd
  have hclosed := h.dataClosed e
  cases hstop : stopWanted s.params q' d e with
  | false =>
    rw [finishData_noStop hq hqd hstop]
    exact ⟨_, Res.outcome_done _, .inl (ready_iff.1 hclosed.ready).1⟩
  | true =>
    obtain ⟨c', hc'⟩ := Option.ne_none_iff_exists'.1 (stopWanted_iff.1 hstop).1
    obtain ⟨c, hc, -⟩ := hsame.symm.command (r := .stop) (c := c') (by simp [Request.command, hqd, hc'])
    obtain ⟨u, hboth, hu⟩ := abortBoth_sameEngine hclosed.ready
    rw [finishData_stop_error hq hqd hstop he, hboth, Res.bind_done]
    exact issueStop_ends (hclosed.congr hu) hc

section
variable {q : Request} {s : State} (h : Running q s)
include h

theorem Running.timer_isSome (hfin : s.finishPend = false) : s.timer.isSome = true :=
  (h.progress.resolve_left (by simp [hfin])).2

theorem Running.exec_wdog (hfin : s.finishPend = false) : exec .wdog s = (watchdogFire s).outcome :=
  Machine.exec_wdog (ready_iff.1 h.ready).1 (h.timer_isSome hfin)

/-- R221: with no Data phase a fire schedules the completion. -/
theorem Running.wdog_noData (hfin : s.finishPend = false) (hcur : s.curData = false) :
    ∃ t, exec .wdog s = .next t ∧ t.fault = none ∧ t.finishPend = true := by
  obtain ⟨q', hq, -⟩ := h.req
  obtain ⟨t, ht, hP⟩ := (watchdogFire_safe h).outcome_next (watchdogFire_moves s)
  have hlive : t.fault = none := by
    rw [watchdogFire_noData hq hcur, forceTimeout] at ht
    split at ht <;> cases ht
    exact (ready_iff.1 h.ready).1
  obtain ⟨-, hmove⟩ := hP hlive
  exact ⟨t, (h.exec_wdog hfin).trans ht, hlive,
    hmove.resolve_right fun hstop => (nomatch hcur.symm.trans hstop.2.1)⟩

/-- R219: with a Data phase a fire schedules the completion, leaves the stop command outstanding, or raises the
fault of one that cannot be sent. -/
theorem Running.wdog_data (hfin : s.finishPend = false) (hcur : s.curData = true) :
    ∃ t, exec .wdog s = .next t ∧ (t.fault = some .configOpcode ∨ t.fault = some .configShape ∨
      t.fault = none ∧ Running q t ∧ Moves StopIssued s t) := by
  obtain ⟨q', hq, -⟩ := h.req
  have hoff : Active q { s with timer := none } := { h.toActive with }
  obtain ⟨d, hd, -⟩ := hoff.attachedData hcur
  obtain ⟨t, ht, hfault⟩ := finishData_error_ends hoff hd (e := .timeout) (by decide)
  have hnext : exec .wdog s = .next t := by rw [h.exec_wdog hfin, watchdogFire_data hq hcur, ht]
  refine ⟨t, hnext, ?_⟩
  obtain hlive | hfault | hfault := hfault
  · exact .inr (.inr ⟨hlive, (watchdogFire_safe h).exec_next (i := .wdog) hnext hlive⟩)
  · exact .inl hfault
  · exact .inr (.inl hfault)

end

/-- Settles O53: a fire schedules the completion, or the next one does; the two other works do theirs. -/
theorem everyRequestEnds : Obligations.EveryRequestEnds := by
  unfold Obligations.EveryRequestEnds
  refine ⟨fun s hinv hs hreq hfin => ?_, fun s q _ hs hq hfin => ?_, fun s q rest hf hq => ?_⟩
  · obtain ⟨q, hrun⟩ := (engineInv_of_invOk hinv (ready_iff.1 hs).1).noRequest_or_running.resolve_left
      (Option.isSome_iff_ne_none.1 hreq)
    cases hcur : s.curData with
    | false =>
      obtain ⟨t, ht, -, hpend⟩ := hrun.wdog_noData hfin hcur
      exact ⟨t, ht, .inr (.inr (.inl hpend))⟩
    | true =>
      obtain ⟨t, ht, hfault | hfault | ⟨-, hrun', (hpend | ⟨hsame, -, -, hclosed, -⟩)⟩⟩ := hrun.wdog_data hfin hcur
      · exact ⟨t, ht, .inl hfault⟩
      · exact ⟨t, ht, .inr (.inl hfault)⟩
      · exact ⟨t, ht, .inr (.inr (.inl hpend))⟩
      · exact ⟨t, ht, .inr (.inr (.inr (hrun'.wdog_noData (hsame.trans hfin) hclosed)))⟩
  · obtain ⟨t, ht, hcompleted⟩ := exec_workFinish_completes hs hq hfin
    exact ⟨t, ht, hcompleted.fault, hcompleted.req, hcompleted.notifyQ⟩
  · exact ⟨_, exec_notify_delivers hf hq, rfl, rfl⟩

end Sys2Proof.Machine

/-! A dispatch takes every bit it read (spec/44_dispatcher.md R190, R191, R196): the word latched in INT_STATUS
through the four categories, and the proof of DispatchCompletes. -/

namespace Sys2Proof.Machine

/-- The operation ends in P where it goes on. -/
abbrev Res.Leaves (x : Res Unit) (P : State → Prop) : Prop := x.Ends (fun _ t => P t) (fun _ => True)

/-- A next state without a fault is where the operation went on. -/
theorem Res.Leaves.outcome_next {x : Res Unit} {P : State → Prop} (h : x.Leaves P) {s t : State} {W : List Field}
    (hm : x.Moves W s) (ht : x.outcome = .next t) (hf : t.fault = none) : P t := by
  cases x with
  | ok a u =>
    cases ht
    exact h
  | raised u =>
    cases ht
    obtain ⟨-, r, hr, -⟩ := hm
    exact nomatch hf.symm.trans hr
  | stuck r => cases ht

/-- The window is open and INT_STATUS holds w. -/
structure Latched (p : Params) (w : Word) (s : State) : Prop where
  ready : Machine.ready s = true
  params : s.params = p
  intStatus : s.win.intStatus = w

section
variable {p : Params} {w : Word} {s : State} (hs : Latched p w s)
include hs

/-- What writes neither the attachment nor INT_STATUS leaves the word latched. -/
theorem Res.Moves.latched {x : Res Unit} {W : List Field} (hx : x.Moves W s) (hstatus : .reg .intStatus ∉ W)
    (hattached : .attached ∉ W) : x.Leaves (Latched p w) := by
  cases x with
  | ok a t =>
    obtain ⟨hf, ha, hp⟩ := ready_iff.1 hs.ready
    obtain ⟨hmoved, hfault⟩ := hx
    have hframe := hmoved.frame hp
    have hvalue : t.win.intStatus.toNat = s.win.intStatus.toNat := hframe _ hstatus
    refine ⟨ready_iff.2 ⟨hfault.trans hf, (hframe _ hattached).trans ha, ?_⟩, hmoved.params.trans hs.params,
      (BitVec.eq_of_toNat_eq hvalue).trans hs.intStatus⟩
    rw [hmoved.params]
    exact hp
  | raised t => trivial
  | stuck r => trivial

/-- R191: a category's bits leave INT_STATUS before its handler runs. -/
theorem acknowledge_latched (bits : Word) {W : List Field} {handler : State → Res Unit}
    (hh : ∀ t, (handler t).Moves W t) (hstatus : .reg .intStatus ∉ W) (hattached : .attached ∉ W) :
    (acknowledge bits handler s).Leaves (Latched p (w &&& ~~~bits)) := by
  by_cases hb : bits = 0
  · rw [acknowledge_none hb]
    have hsame : w &&& ~~~bits = w := by
      rw [hb, show (0 : Word) = 0#32 from rfl, BitVec.not_zero, BitVec.and_allOnes]
    rw [hsame]
    exact hs
  · rw [acknowledge_bits hs.ready hb]
    have hcleared : Latched p (w &&& ~~~bits) (acknowledged bits s) :=
      ⟨hs.ready, hs.params, congrArg (· &&& ~~~bits) hs.intStatus⟩
    exact (hh _).latched hcleared hstatus hattached

end

/-- R190: the four categories of a word take every bit of it. -/
theorem parts_clear (p : Params) (w : Word) :
    w &&& ~~~cardPart p w &&& ~~~cmdPart p w &&& ~~~dataPart p w &&& ~~~restPart p w = 0 := by
  rw [show (0 : Word) = 0#32 from rfl]
  ext n hn
  simp only [cardPart, cmdPart, dataPart, restPart, BitVec.getElem_and, BitVec.getElem_not, BitVec.getElem_zero]
  cases w[n] <;> cases (cardMask p)[n] <;> cases (cmdMask p)[n] <;> cases (dataMask p)[n] <;> rfl

/-- R196: a dispatch that goes on leaves INT_STATUS clear. -/
theorem dispatchWord_latched {p : Params} {w : Word} {s : State} (hs : Latched p w s) :
    (dispatchWord w s).Leaves (Latched p 0) := by
  have hfront : (dispatchFront w s).Leaves (Latched p (w &&& ~~~cardPart p w &&& ~~~cmdPart p w)) := by
    refine Res.Ends.bind (acknowledge_latched hs _
      (fun t => ok_moves () (moved_scheduleCard t) rfl) (by decide) (by decide)) fun _ t ht => ?_
    rw [hs.params] at ht
    rw [ht.params]
    exact acknowledge_latched ht _ (fun u => onCommandInterrupt_moves u _) (by decide) (by decide)
  refine Res.Ends.bind hfront fun _ m hm => ?_
  refine Res.Ends.bind (acknowledge_latched hm _
    (fun t => onDataInterrupt_moves t _) (by decide) (by decide)) fun _ t ht => ?_
  rw [hm.params] at ht
  rw [ht.params, ← parts_clear p w]
  exact acknowledge_latched ht _ (fun u => moved_logRemaining u _) (by decide) (by decide)

/-- R196: from the invariant a dispatch answers a next state, with INT_STATUS clear where no fault was raised and
the word was not spurious. -/
theorem EngineInv.dispatch_completes {s : State} (h : EngineInv s) (hs : ready s = true) :
    ∃ t, (dispatch s).outcome = .next t ∧
      (t.fault = none → spuriousWord s.win.intStatus = false → t.win.intStatus = 0) := by
  obtain ⟨t, ht, -⟩ := (h.dispatch_safe (ready_iff.1 hs).2.1).outcome_next (dispatch_moves s)
  refine ⟨t, ht, fun hf hw => ?_⟩
  have hmoves := dispatch_moves s
  rw [dispatch_eq hs hw] at ht hmoves
  have hread : Latched s.params s.win.intStatus (statusRead s) := ⟨hs, rfl, rfl⟩
  exact ((dispatchWord_latched hread).outcome_next hmoves ht hf).intStatus

/-- Settles O43: IRQ is a dispatch, and a status word is the dispatch of the word raised. -/
theorem dispatchCompletes : Obligations.DispatchCompletes := by
  unfold Obligations.DispatchCompletes
  intro s hinv hs
  obtain ⟨hf, ha, -⟩ := ready_iff.1 hs
  have hengine := engineInv_of_invOk hinv hf
  refine ⟨?_, fun i w hw => ?_⟩
  · rw [exec_irq hs]
    exact hengine.dispatch_completes hs
  · rw [exec_statusWord hf ha hw]
    exact (hengine.congr ha (sameEngine_envRaise w s)).dispatch_completes hs

end Sys2Proof.Machine

/-! Weakly fair runs (spec/70_reset_and_hazards.md R298, R299, spec/45_completion_watchdog.md R228, R229,
spec/46_issuer_platform.md R232): the account of the queue over a run, the Request that goes on running until the
watchdog or another agent schedules its completion and WORK_FINISH ends it, and the NOTIFY turn that delivers it.
The proof of EventuallyNotified. -/

namespace Sys2Proof.Machine

/-! ### One turn of a run (R19, R79; log 11) -/

/-- The same block with the model's own answers and schedule replaced. -/
def refit (answers : List Word) (agenda : List Entry) (turns : Nat) (s : State) : State :=
  { s with answers := answers, agenda := agenda, turns := turns }

theorem sameEngine_refit (answers : List Word) (agenda : List Entry) (turns : Nat) (s : State) :
    SameEngine s (refit answers agenda turns s) :=
  ⟨rfl, rfl, rfl, rfl, rfl, rfl, rfl, rfl, rfl⟩

theorem enabled_refit (answers : List Word) (agenda : List Entry) (turns : Nat) (i : Instr) (s : State) :
    enabled i (refit answers agenda turns s) = enabled i s := by
  cases i <;> rfl

theorem runOffer_live {i : Instr} {s t : State} (h : runOffer i s = .next t) : s.fault = none := by
  cases hi : i.topLevel with
  | false =>
    rw [runOffer_inner hi] at h
    exact (whenLive_next h).1
  | true =>
    by_contra hf
    obtain ⟨r, hr⟩ := Option.ne_none_iff_exists'.1 hf
    have hhalted := exec_halted hr i
    rw [runOffer_exec hi (by simp [hhalted]), hhalted] at h
    cases h

/-- R79: an enabled top-level step that is offered is taken. -/
theorem runOffer_taken {i : Instr} {s t : State} (hi : i.topLevel = true) (he : enabled i s = true)
    (h : runOffer i s = .next t) : exec i s = .next t := by
  have hne : ∀ m, exec i s ≠ .refused (.notEnabled m) := fun m hm =>
    nomatch he.symm.trans ((enabledExactly i s (runOffer_live h)).2 ⟨m, hm⟩)
  rwa [runOffer_exec hi hne] at h

section
variable {i : Instr} {s t : State} (h : agentStep i s t)
include h

theorem agentStep_live : s.fault = none := by
  obtain ⟨answers, agenda, turns, h⟩ := h
  exact runOffer_live (s := refit answers agenda turns s) h

/-- A turn leaves the block, its schedule replaced, or takes the top-level step offered. -/
theorem agentStep_cases : ∃ answers agenda turns,
    t = refit answers agenda turns s ∨ i.topLevel = true ∧ exec i (refit answers agenda turns s) = .next t := by
  obtain ⟨answers, agenda, turns, h⟩ := h
  exact ⟨answers, agenda, turns, runOffer_next h⟩

theorem agentStep_taken (hi : i.topLevel = true) (he : enabled i s = true) :
    ∃ answers agenda turns, exec i (refit answers agenda turns s) = .next t := by
  obtain ⟨answers, agenda, turns, h⟩ := h
  exact ⟨answers, agenda, turns, runOffer_taken hi ((enabled_refit answers agenda turns i s).trans he) h⟩

theorem agentStep_invOk (hinv : invOk s = true) : invOk t = true := by
  obtain ⟨answers, agenda, turns, rfl | ⟨hi, hexec⟩⟩ := agentStep_cases h
  · exact hinv
  · exact exec_keepsInv (s := refit answers agenda turns s) hinv (wholeStep_of_topLevel hi) hexec

end

/-! ### The account of the queue (R228, R232) -/

/-- The Request an event notifies, if any. -/
def notifiedBy : Event → Option Request
  | .notifyComplete q => some q
  | _ => none

theorem notifiedBy_none {e : Event} (h : isNotification e = false) : notifiedBy e = none := by
  cases e with
  | notifyComplete q => cases h
  | _ => rfl

/-- From s to t the Requests `sent` were notified and those in `queued` completed, each list in order. -/
structure Account (s t : State) (sent queued : List Request) : Prop where
  trace : ∃ es, t.trace = s.trace ++ es ∧ es.filterMap notifiedBy = sent
  queue : s.notifyQ ++ queued = sent ++ t.notifyQ

theorem Account.refl (s : State) : Account s s [] [] := ⟨⟨[], by simp⟩, by simp⟩

theorem Account.trans {s t u : State} {sent sent' queued queued' : List Request} (h : Account s t sent queued)
    (h' : Account t u sent' queued') : Account s u (sent ++ sent') (queued ++ queued') := by
  obtain ⟨⟨es, hes, hsent⟩, hqueue⟩ := h
  obtain ⟨⟨es', hes', hsent'⟩, hqueue'⟩ := h'
  refine ⟨⟨es ++ es', by rw [hes', hes, List.append_assoc], by rw [List.filterMap_append, hsent, hsent']⟩, ?_⟩
  rw [← List.append_assoc, hqueue, List.append_assoc, hqueue', List.append_assoc]

theorem account_refit (answers : List Word) (agenda : List Entry) (turns : Nat) (s : State) :
    Account s (refit answers agenda turns s) [] [] := ⟨⟨[], by simp [refit]⟩, by simp [refit]⟩

theorem Account.deliveries {s t : State} {sent queued : List Request} (h : Account s t sent queued) :
    deliveries s t = sent := by
  obtain ⟨⟨es, hes, hsent⟩, -⟩ := h
  rw [Machine.deliveries, hes, List.drop_left, ← hsent]
  rfl

theorem filterMap_notifiedBy_quiet {es : List Event} (h : ∀ e ∈ es, isNotification e = false) :
    es.filterMap notifiedBy = [] :=
  List.filterMap_eq_nil_iff.2 fun e he => notifiedBy_none (h e he)

theorem QueueKept.account {s t : State} (h : QueueKept s t) : Account s t [] [] := by
  obtain ⟨es, hes, hquiet⟩ := h.trace
  exact ⟨⟨es, hes, filterMap_notifiedBy_quiet hquiet⟩, by simp [h.notifyQ]⟩

theorem Completed.account {s t : State} {q : Request} (h : Completed s q t) : Account s t [] [notified s q] := by
  obtain ⟨es, hes, hquiet⟩ := h.trace
  exact ⟨⟨es, hes, filterMap_notifiedBy_quiet hquiet⟩, by simp [h.notifyQ]⟩

theorem account_delivered {s : State} {q : Request} {rest : List Request} (h : s.notifyQ = q :: rest) :
    Account s (record (.notifyComplete q) { s with notifyQ := rest }) [q] [] :=
  ⟨⟨[.notifyComplete q], rfl, rfl⟩, by simp [h]⟩

section
variable {i : Instr} {s t : State} (hinv : invOk s = true) (h : agentStep i s t)
include hinv h

/-- A turn but NOTIFY's notifies nothing. -/
theorem agentStep_account (hi : i ≠ .notify) : ∃ queued, Account s t [] queued := by
  obtain ⟨answers, agenda, turns, rfl | ⟨htop, hexec⟩⟩ := agentStep_cases h
  · exact ⟨[], account_refit answers agenda turns s⟩
  · obtain ⟨-, q, -, hcompleted⟩ | ⟨rfl, -⟩ | hkept := exec_queue (s := refit answers agenda turns s) hinv htop hexec
    · exact ⟨_, (account_refit answers agenda turns s).trans hcompleted.account⟩
    · exact absurd rfl hi
    · exact ⟨[], (account_refit answers agenda turns s).trans hkept.account⟩

/-- A turn in which WORK_FINISH is not taken queues nothing. -/
theorem agentStep_account_running (hi : i ≠ .workFinish ∨ s.finishPend = false) : ∃ sent, Account s t sent [] := by
  obtain ⟨answers, agenda, turns, rfl | ⟨htop, hexec⟩⟩ := agentStep_cases h
  · exact ⟨[], account_refit answers agenda turns s⟩
  · obtain ⟨rfl, -⟩ | ⟨-, q, rest, hq, rfl⟩ | hkept := exec_queue (s := refit answers agenda turns s) hinv htop hexec
    · obtain ⟨-, he, -⟩ := exec_next hexec
      exact nomatch (hi.resolve_left (by simp)).symm.trans he
    · exact ⟨[q], (account_refit answers agenda turns s).trans (account_delivered hq)⟩
    · exact ⟨[], (account_refit answers agenda turns s).trans hkept.account⟩

end

/-- A NOTIFY turn with a Request queued delivers the oldest. -/
theorem agentStep_notify {s t : State} {q : Request} {rest : List Request} (h : agentStep .notify s t)
    (hq : s.notifyQ = q :: rest) : Account s t [q] [] ∧ t.notifyQ = rest := by
  obtain ⟨answers, agenda, turns, hexec⟩ := agentStep_taken h rfl (by simp [enabled, hq])
  cases (exec_notify_delivers (s := refit answers agenda turns s) (agentStep_live h) hq).symm.trans hexec
  exact ⟨(account_refit answers agenda turns s).trans (account_delivered hq), rfl⟩

/-! ### A Request over one turn -/

section
variable {q : Request} {i : Instr} {s t : State} (hs : Running q s) (h : agentStep i s t) (ht : t.fault = none)
include hs h ht

/-- A Request goes on running until WORK_FINISH is taken. -/
theorem agentStep_running (hi : i ≠ .workFinish ∨ s.finishPend = false) : Running q t ∧ RunMove q s t := by
  obtain ⟨answers, agenda, turns, rfl | ⟨htop, hexec⟩⟩ := agentStep_cases h
  · have hsame := sameEngine_refit answers agenda turns s
    exact ⟨hs.congr hsame, runMove_of_sameEngine hs hsame⟩
  · obtain ⟨-, he, -⟩ := exec_next hexec
    have hne : i ≠ .workFinish := fun hwork => by
      subst hwork
      exact nomatch (hi.resolve_left (by simp)).symm.trans he
    exact ((hs.congr (sameEngine_refit answers agenda turns s)).rule_safe htop hne he).exec_next hexec ht

end

section
variable {q : Request} {s t : State} (hs : Running q s)
include hs

/-- A WDOG turn schedules the completion or leaves the stop command outstanding. -/
theorem agentStep_wdog (h : agentStep .wdog s t) (ht : t.fault = none) (hfin : s.finishPend = false) :
    Running q t ∧ Moves StopIssued s t := by
  obtain ⟨answers, agenda, turns, hexec⟩ := agentStep_taken h rfl (hs.timer_isSome hfin)
  exact (watchdogFire_safe (hs.congr (sameEngine_refit answers agenda turns s))).exec_next (i := .wdog) hexec ht

/-- A WORK_FINISH turn with the completion scheduled completes the Request. -/
theorem agentStep_workFinish (h : agentStep .workFinish s t) (hfin : s.finishPend = true) {q' : Request}
    (hq : s.req = some q') : t.req = none ∧ Account s t [] [notified s q'] := by
  obtain ⟨answers, agenda, turns, hexec⟩ := agentStep_taken h rfl hfin
  obtain ⟨u, hu, hcompleted⟩ := exec_workFinish_completes (s := refit answers agenda turns s) hs.ready hq hfin
  cases hu.symm.trans hexec
  exact ⟨hcompleted.req, (account_refit answers agenda turns s).trans hcompleted.account⟩

end

/-- The stop command is outstanding, the Data phase ended, and completion not yet scheduled (R170). -/
structure Stopping (s : State) : Prop where
  finishPend : s.finishPend = false
  curCmd : s.curCmd = some .stop
  curData : s.curData = false

/-- A move that leaves the slot and the Data phase of a stopping Request leaves it stopping. -/
theorem Stopping.of_stays {s t : State} (h : Stopping s) (hfin : t.finishPend = s.finishPend) (hstays : Stays s t) :
    Stopping t :=
  ⟨hfin.trans h.finishPend, hstays.1.trans h.curCmd, hstays.2.1.trans h.curData⟩

section
variable {s t : State} (hs : Stopping s)
include hs

theorem Stopping.cmdMove (h : CmdMove s t) : t.finishPend = true ∨ Stopping t := by
  obtain hfin | ⟨hfin, hstays | hprimary | ⟨-, hstop⟩ | hresponded⟩ := h
  · exact .inl hfin
  · exact .inr (hs.of_stays hfin hstays)
  · exact nomatch hs.curCmd.symm.trans hprimary.1
  · exact nomatch hs.curData.symm.trans hstop.1
  · exact nomatch hs.curData.symm.trans hresponded.2.1

theorem Stopping.dataMove (h : DataMove s t) : t.finishPend = true ∨ Stopping t := by
  obtain hfin | ⟨hfin, hstays | hprimary | hstop | hcame⟩ := h
  · exact .inl hfin
  · exact .inr (hs.of_stays hfin hstays)
  · exact nomatch hs.curCmd.symm.trans hprimary.1
  · exact nomatch hs.curData.symm.trans hstop.1
  · exact nomatch hs.curData.symm.trans hcame.2.1

theorem Stopping.fired (h : Moves StopIssued s t) : t.finishPend = true :=
  h.resolve_right fun hstop => (nomatch hs.curData.symm.trans hstop.2.1)

end

/-- Once completion is scheduled no move takes it back. -/
theorem Moves.finishPend {move : State → State → Prop} {s t : State} (h : Moves move s t)
    (hs : s.finishPend = true) : t.finishPend = true := h.elim id fun hmove => hmove.1.trans hs

theorem RunMove.finishPend {q : Request} {s t : State} (h : RunMove q s t) (hs : s.finishPend = true) :
    t.finishPend = true := by
  obtain ⟨m, -, hcmd, hdata⟩ | hstop := h
  · exact Moves.finishPend hdata (Moves.finishPend hcmd hs)
  · exact hstop.finishPend hs

/-- A stopping Request goes on stopping until its completion is scheduled. -/
theorem RunMove.stopping {q : Request} {s t : State} (h : RunMove q s t) (hs : Stopping s) :
    t.finishPend = true ∨ Stopping t := by
  obtain ⟨m, -, hcmd, hdata⟩ | hstop := h
  · obtain hfin | hm := hs.cmdMove hcmd
    · exact .inl (Moves.finishPend hdata hfin)
    · exact hm.dataMove hdata
  · exact .inl (hs.fired hstop)

/-! ### Fair runs (R298) -/

/-- Weak fairness for a step that stays owed while P holds: P goes on until the step is offered or G holds. -/
theorem fairRun_until {states : Nat → State} {offers : Nat → Instr} (hfair : fairRun states offers) {i : Instr}
    {P G : Nat → Prop} {n : Nat} (h0 : P n) (hstep : ∀ j, P j → offers j ≠ i → P (j + 1) ∨ G (j + 1))
    (howed : ∀ j, P j → owed i (states j) = true) : ∃ m, n ≤ m ∧ (P m ∧ offers m = i ∨ G m) := by
  obtain ⟨m, hm, hoffer⟩ := hfair i n
  obtain ⟨d, rfl⟩ := Nat.exists_eq_add_of_le hm
  clear hm
  induction d generalizing n with
  | zero => exact ⟨n, Nat.le_refl n, .inl ⟨h0, hoffer (howed n h0)⟩⟩
  | succ d ih =>
    by_cases hi : offers n = i
    · exact ⟨n, Nat.le_refl n, .inl ⟨h0, hi⟩⟩
    · obtain hP | hG := hstep n h0 hi
      · obtain ⟨m, hm, hend⟩ := ih hP (by rwa [Nat.add_right_comm])
        exact ⟨m, by omega, hend⟩
      · exact ⟨n + 1, by omega, .inr hG⟩

/-- From turn n to turn m the Request goes on running, and none is completed. -/
structure Carried (states : Nat → State) (q : Request) (n m : Nat) : Prop where
  running : ∀ j, n ≤ j → j ≤ m → Running q (states j)
  account : ∃ sent, Account (states n) (states m) sent []
  le : n ≤ m

theorem carried_refl {states : Nat → State} {q : Request} {n : Nat} (h : Running q (states n)) :
    Carried states q n n where
  running _ hn hm := Nat.le_antisymm hn hm ▸ h
  account := ⟨[], .refl _⟩
  le := Nat.le_refl n

section
variable {states : Nat → State} {offers : Nat → Instr} (hrun : isRun states offers)
include hrun

theorem isRun_live (n : Nat) : (states n).fault = none := agentStep_live (hrun n)

theorem isRun_invOk (hinv : invOk (states 0) = true) (n : Nat) : invOk (states n) = true := by
  induction n with
  | zero => exact hinv
  | succ n ih => exact agentStep_invOk (hrun n) ih

/-- R299: a Request is carried over every turn in which WORK_FINISH is not taken. -/
theorem Carried.step (hinv : ∀ n, invOk (states n) = true) {q : Request} {n m : Nat} (h : Carried states q n m)
    (hi : offers m ≠ .workFinish ∨ (states m).finishPend = false) :
    Carried states q n (m + 1) ∧ RunMove q (states m) (states (m + 1)) := by
  have hs := h.running m h.le (Nat.le_refl m)
  obtain ⟨hnext, hmove⟩ := agentStep_running hs (hrun m) (isRun_live hrun (m + 1)) hi
  obtain ⟨sent, hsent⟩ := h.account
  obtain ⟨sent', hsent'⟩ := agentStep_account_running (hinv m) (hrun m) hi
  refine ⟨⟨fun j hn hm => ?_, ⟨sent ++ sent', hsent.trans hsent'⟩, Nat.le_succ_of_le h.le⟩, hmove⟩
  obtain hm | rfl := Nat.le_or_eq_of_le_succ hm
  · exact h.running j hn hm
  · exact hnext

end

section
variable {states : Nat → State} {offers : Nat → Instr} (hrun : isRun states offers) (hfair : fairRun states offers)
  (hinv : ∀ n, invOk (states n) = true)
include hrun hfair hinv

/-! ### The completion is scheduled (R218, R223) -/

section
variable {q : Request} {n m : Nat} (h : Carried states q n m)
include h

/-- A stopping Request's completion is scheduled: by a fire of the armed timer, if by no one else before. -/
theorem Carried.scheduled_of_stopping (hs : Stopping (states m)) :
    ∃ k, Carried states q n k ∧ (states k).finishPend = true := by
  obtain ⟨k, -, ⟨⟨hc, hs⟩, hoffer⟩ | hend⟩ := fairRun_until hfair (i := .wdog)
    (P := fun j => Carried states q n j ∧ Stopping (states j))
    (G := fun j => Carried states q n j ∧ (states j).finishPend = true) ⟨h, hs⟩
    (fun j ⟨hc, hs⟩ _ => by
      obtain ⟨hnext, hmove⟩ := hc.step hrun hinv (.inr hs.finishPend)
      exact (hmove.stopping hs).symm.imp (fun hs' => ⟨hnext, hs'⟩) fun hfin => ⟨hnext, hfin⟩)
    fun j ⟨hc, hs⟩ => (hc.running j hc.le (Nat.le_refl j)).timer_isSome hs.finishPend
  · have hlive := isRun_live hrun (k + 1)
    obtain ⟨-, hmove⟩ :=
      agentStep_wdog (hc.running k hc.le (Nat.le_refl k)) (hoffer ▸ hrun k) hlive hs.finishPend
    exact ⟨k + 1, (hc.step hrun hinv (.inr hs.finishPend)).1, hs.fired hmove⟩
  · exact ⟨k, hend⟩

/-- R223: every running Request's completion is scheduled. -/
theorem Carried.scheduled : ∃ k, Carried states q n k ∧ (states k).finishPend = true := by
  cases hfin : (states m).finishPend with
  | true => exact ⟨m, h, hfin⟩
  | false =>
    obtain ⟨k, -, ⟨⟨hc, hfin⟩, hoffer⟩ | hend⟩ := fairRun_until hfair (i := .wdog)
      (P := fun j => Carried states q n j ∧ (states j).finishPend = false)
      (G := fun j => Carried states q n j ∧ (states j).finishPend = true) ⟨h, hfin⟩
      (fun j ⟨hc, hfin⟩ _ => by
        obtain ⟨hnext, -⟩ := hc.step hrun hinv (.inr hfin)
        cases (states (j + 1)).finishPend with
        | false => exact .inl ⟨hnext, rfl⟩
        | true => exact .inr ⟨hnext, rfl⟩)
      fun j ⟨hc, hfin⟩ => (hc.running j hc.le (Nat.le_refl j)).timer_isSome hfin
    · have hlive := isRun_live hrun (k + 1)
      obtain ⟨hnext, -⟩ := hc.step hrun hinv (.inr hfin)
      obtain ⟨-, hpend | ⟨hsame, -, hstop, hdata, -⟩⟩ :=
        agentStep_wdog (hc.running k hc.le (Nat.le_refl k)) (hoffer ▸ hrun k) hlive hfin
      · exact ⟨k + 1, hnext, hpend⟩
      · exact hnext.scheduled_of_stopping hrun hfair hinv ⟨hsame.trans hfin, hstop, hdata⟩
    · exact ⟨k, hend⟩

/-- R205: and WORK_FINISH is then taken. -/
theorem Carried.ended :
    ∃ k, Carried states q n k ∧ (states k).finishPend = true ∧ offers k = .workFinish := by
  obtain ⟨m', hc, hfin⟩ := h.scheduled hrun hfair hinv
  obtain ⟨k, -, ⟨⟨hc, hfin⟩, hoffer⟩ | hend⟩ := fairRun_until hfair (i := .workFinish)
    (P := fun j => Carried states q n j ∧ (states j).finishPend = true) (G := fun _ => False) ⟨hc, hfin⟩
    (fun j ⟨hc, hfin⟩ hne => by
      obtain ⟨hnext, hmove⟩ := hc.step hrun hinv (.inl hne)
      exact .inl ⟨hnext, hmove.finishPend hfin⟩)
    fun j ⟨_, hfin⟩ => hfin
  · exact ⟨k, hc, hfin, hoffer⟩
  · exact hend.elim

end

/-! ### The queue is delivered in order (R232) -/

/-- The oldest Request queued is delivered at a later NOTIFY turn. -/
theorem oldest_delivered {n : Nat} {x : Request} {rest : List Request} (hq : (states n).notifyQ = x :: rest) :
    ∃ k more, n ≤ k ∧ offers k = .notify ∧ Account (states n) (states (k + 1)) [x] more ∧
      (states (k + 1)).notifyQ = rest ++ more := by
  have hqueue : ∀ {j : Nat} {more : List Request}, Account (states n) (states j) [] more →
      (states j).notifyQ = x :: (rest ++ more) := fun ha => by
    simpa [hq] using ha.queue.symm
  obtain ⟨k, hk, ⟨⟨more, hmore⟩, hoffer⟩ | hend⟩ := fairRun_until hfair (i := .notify)
    (P := fun j => ∃ more, Account (states n) (states j) [] more) (G := fun _ => False) ⟨[], .refl (states n)⟩
    (fun j ⟨more, hmore⟩ hne => by
      obtain ⟨more', hmore'⟩ := agentStep_account (hinv j) (hrun j) hne
      exact .inl ⟨_, hmore.trans hmore'⟩)
    fun j ⟨more, hmore⟩ => by simp [owed, hqueue hmore]
  · obtain ⟨hdelivered, hrest⟩ := agentStep_notify (hoffer ▸ hrun k) (hqueue hmore)
    refine ⟨k, more, hk, hoffer, ?_, hrest⟩
    simpa using hmore.trans hdelivered
  · exact hend.elim

/-- Every Request queued is delivered at a later NOTIFY turn, after those queued before it. -/
theorem queued_delivered {l : List Request} {n : Nat} {x : Request} {rest : List Request}
    (hq : (states n).notifyQ = l ++ x :: rest) :
    ∃ k more, n ≤ k ∧ offers k = .notify ∧ Account (states n) (states (k + 1)) (l ++ [x]) more := by
  induction l generalizing n rest with
  | nil =>
    obtain ⟨k, more, hk, hoffer, haccount, -⟩ := oldest_delivered hrun hfair hinv hq
    exact ⟨k, more, hk, hoffer, haccount⟩
  | cons y l ih =>
    obtain ⟨k, more, hk, -, haccount, hrest⟩ := oldest_delivered hrun hfair hinv hq
    obtain ⟨k', more', hk', hoffer, haccount'⟩ := ih (n := k + 1) (rest := rest ++ more) (by simp [hrest])
    exact ⟨k', more ++ more', by omega, hoffer, haccount.trans haccount'⟩

end

/-- Settles O54: the Request is carried to the WORK_FINISH turn that queues it, and then delivered in its place. -/
theorem eventuallyNotified : Obligations.EventuallyNotified := by
  unfold Obligations.EventuallyNotified
  intro states offers hrun hfair hinv0 n q hq
  have hinv := isRun_invOk hrun hinv0
  obtain ⟨q0, hs⟩ := (engineInv_of_invOk (hinv n) (isRun_live hrun n)).noRequest_or_running.resolve_left (by simp [hq])
  obtain ⟨m, hc, hfin, hwork⟩ := (carried_refl hs).ended hrun hfair hinv
  have hlast := hc.running m hc.le (Nat.le_refl m)
  obtain ⟨q1, hq1, hsame⟩ := hs.req
  obtain ⟨q', hq', hsame'⟩ := hlast.req
  obtain ⟨hnone, hcompleted⟩ := agentStep_workFinish hlast (hwork ▸ hrun m) hfin hq'
  have hqueue : (states (m + 1)).notifyQ = (states m).notifyQ ++ [notified (states m) q'] := hcompleted.queue.symm
  obtain ⟨k, more, hk, hnotify, hdelivered⟩ := queued_delivered hrun hfair hinv hqueue
  obtain ⟨sent, hsent⟩ := hc.account
  cases hq.symm.trans hq1
  refine ⟨m, k, q', hc.le, hk, fun j hn hm => ?_, hwork, hq', hnone, hsame'.trans hsame.symm, hnotify, ?_⟩
  · exact Option.isSome_iff_ne_none.2 (hc.running j hn hm).req_ne_none
  · have hcarried : (states n).notifyQ = sent ++ (states m).notifyQ := by simpa using hsent.queue
    rw [((hsent.trans hcompleted).trans hdelivered).deliveries, hcarried]
    simp

end Sys2Proof.Machine
